-- ==== Sys2Proof/Word.lean ====
section
/-! DEFINITION. The word type of the block: everything that crosses its boundary is a sequence of
bytes (00_scope.md section 6: "A byte is 8 bits. `u8` ... are unsigned integers"). -/

namespace Sys2Proof

/-- A byte, the spec's `u8`. -/
abbrev Byte := BitVec 8

end Sys2Proof
end

