-- ==== Sys2Proof/Config.lean ====
section
/-! DEFINITION. The parameter record of 00_scope.md R6, the types it and the environment are made
of, the quantities the source itself fixes, and the free value standing for the environment. -/

namespace Sys2Proof

/-- What `GpioRead` returns (20_memory.md R62). -/
inductive Level where
  | low
  | high
deriving DecidableEq, Repr, Inhabited

/-- The spec's `Function`: what a slot is mapped to (10_state.md R28). `Button(b)` has `b` in
0 .. `BUTTON_INDEX_MAX` (a check of `tableOk`), `KeyCode(k)` any byte. -/
inductive Func where
  | disabled
  | button (b : Nat)
  | axisUp
  | axisDown
  | axisLeft
  | axisRight
  | keyCode (k : Byte)
deriving DecidableEq, Repr, Inhabited

/-- A mapping table: one row per player, player 1 first; one `Function` per slot, slot 0 first
(10_state.md R27). -/
abbrev Table := List (List Func)

/-- One logical input, `INPUT[i]` (00_scope.md R6). Players are numbered from 1, slots from 0; the
pin handle is opaque to the block. -/
structure Input where
  player : Nat
  slot : Nat
  activeLow : Bool
  pin : Nat
deriving DecidableEq, Repr, Inhabited

/-- `MODE` (10_state.md R40). -/
inductive Mode where
  | joystick
  | keyboard
  | jvs
deriving DecidableEq, Repr, Inhabited

/-- `KBD_POLICY` with its size: `KBD_SLOTS` or `KBD_BITMAP_BITS` (43_keyboard.md R170, R178). The
legal sizes are a check of `Config.wf`. -/
inductive KbdPolicy where
  | slot (slots : Nat)
  | bitmap (bits : Nat)
deriving DecidableEq, Repr, Inhabited

/-- The ten command bytes `JVS_OP_*` (30_encoding.md R85). -/
structure JvsOps where
  reset : Byte
  assignAddr : Byte
  ioIdent : Byte
  cmdRev : Byte
  jvsRev : Byte
  commVer : Byte
  featChk : Byte
  readSwitches : Byte
  readCoins : Byte
  retransmit : Byte
deriving DecidableEq, Repr, Inhabited

/-- The ten command bytes in the order of 30_encoding.md R85. -/
def JvsOps.toList (o : JvsOps) : List Byte :=
  [o.reset, o.assignAddr, o.ioIdent, o.cmdRev, o.jvsRev, o.commVer, o.featChk, o.readSwitches,
    o.readCoins, o.retransmit]

/-- The parameter record of 00_scope.md R6, "fixed before the first poll" and never changed while
the block runs: one field per row of its table, in the table's order. `N_INPUTS` is the length of
`inputs`. `jvsSwitchOf` is the finite function `jvs_switch_of` as an association list: the first
entry of a `Function` counts, a `Function` with no entry is `None`. Six rows have a value that the
source itself fixes; `Config.wf` admits no other (log 3). -/
structure Config where
  mode : Mode
  nPlayers : Nat
  /-- `MAX_PINS_PER_PLAYER`. -/
  maxPins : Nat
  inputs : List Input
  debounceMs : Nat
  tsWidth : Nat
  /-- `BUTTON_INDEX_MAX`. -/
  buttonIndexMax : Nat
  joyHasReportId : Bool
  joyReportId1 : Byte
  joyReportId2 : Byte
  joyAxisMin : Byte
  joyAxisCenter : Byte
  joyAxisMax : Byte
  joyButtonCount : Nat
  kbdPolicy : KbdPolicy
  kbdHasReportId : Bool
  kbdReportId : Byte
  kbdModifierKeys : Bool
  /-- `JVS_SYNC`. -/
  jvsSync : Byte
  /-- `JVS_ESCAPE`. -/
  jvsEscape : Byte
  /-- `JVS_MAX_PAYLOAD`. -/
  jvsMaxPayload : Nat
  broadcastAddr : Byte
  masterAddr : Byte
  statusSuccess : Byte
  statusUnsupported : Byte
  ops : JvsOps
  perCommandReport : Bool
  idString : List Byte
  cmdRev : Byte
  jvsRev : Byte
  commVer : Byte
  features : List Byte
  jvsPlayers : Nat
  switchBytes : Nat
  switchMsbFirst : Bool
  coinSlots : Nat
  /-- `JVS_COIN_MAX`. -/
  jvsCoinMax : Nat
  jvsSwitchOf : List (Func × Nat)
  rxTimeoutMs : Nat
deriving DecidableEq, Repr, Inhabited

/-- The default command bytes of R6 (D22, from general knowledge). -/
def JvsOps.default : JvsOps where
  reset := 0xF0
  assignAddr := 0xF1
  ioIdent := 0x10
  cmdRev := 0x11
  jvsRev := 0x12
  commVer := 0x13
  featChk := 0x14
  readSwitches := 0x20
  readCoins := 0x21
  retransmit := 0x2F

/-- The defaults of R6. The OPEN parameters take the values named in notes/assumptions/2.md
(DESIGN CHOICE). -/
def Config.default : Config where
  mode := .jvs
  nPlayers := 2
  maxPins := 17
  inputs := []
  debounceMs := 5
  tsWidth := 32
  buttonIndexMax := 29
  joyHasReportId := true
  joyReportId1 := 1
  joyReportId2 := 2
  joyAxisMin := 0x81
  joyAxisCenter := 0x00
  joyAxisMax := 0x7F
  joyButtonCount := 13
  kbdPolicy := .slot 6
  kbdHasReportId := false
  kbdReportId := 1
  kbdModifierKeys := true
  jvsSync := 0xE0
  jvsEscape := 0xD0
  jvsMaxPayload := 252
  broadcastAddr := 0xFF
  masterAddr := 0x00
  statusSuccess := 0x01
  statusUnsupported := 0x02
  ops := JvsOps.default
  perCommandReport := false
  idString := [0x48, 0x49, 0x44, 0x4F, 0x00]
  cmdRev := 0x13
  jvsRev := 0x30
  commVer := 0x10
  features := [0x01, 0x02, 0x10, 0x00, 0x02, 0x02, 0x00, 0x00, 0x00]
  jvsPlayers := 2
  switchBytes := 2
  switchMsbFirst := true
  coinSlots := 2
  jvsCoinMax := 16383
  jvsSwitchOf := []
  rxTimeoutMs := 1

/-! ## The environment (70_reset_and_hazards.md R334) -/

/-- What the USB transport presents in one iteration: the one input bit `configured` (10_state.md
R49), and for each channel whether `TransportSend` answers `Ok` (20_memory.md R63). -/
structure Transport where
  configured : Bool
  joy1Ok : Bool
  joy2Ok : Bool
  kbdOk : Bool
deriving DecidableEq, Repr, Inhabited

/-- What the outside supplies to one turn of the poll loop: the current time, the inputs whose pin
reads `HIGH` at this scan (every other pin reads `LOW`), the transport's side, and the results of
`SerialRecv` presented with it (`none` is a time-out), first result first. -/
structure PollInput where
  now : Nat
  high : List Nat
  transport : Transport
  serial : List (Option Byte)
deriving DecidableEq, Repr, Inhabited

/-- One act of an outside party on the block, or one turn of the poll loop (R334). -/
inductive Act where
  /-- The loop's next turn (46_pipeline.md R260). -/
  | poll (i : PollInput)
  /-- The side-channel's `SET_SWITCH` (45_jvs_commands.md R245). -/
  | setSwitch (player button : Nat) (pressed : Bool)
  /-- The side-channel's `INC_COIN` (R246). -/
  | incCoin (slot : Nat)
  /-- The configuration agent sets `reconfig_pending` with a table (10_state.md R48). -/
  | request (table : Table)
  /-- The next result of `SerialRecv`: a byte, or a time-out (20_memory.md R64, 93 U10). -/
  | serial (result : Option Byte)
  /-- Power-on reset (70_reset_and_hazards.md R310, R311). -/
  | powerOn
deriving DecidableEq, Repr, Inhabited

/-- FREE VALUE (log 5): the `k`-th act of an environment under no law (93 U8 to U10). The step reads
it where the written acts end. -/
opaque Config.environment : Nat → Act

end Sys2Proof
end

