-- ==== Sys2Proof/Syntax.lean ====
section
/-! DEFINITION. The operations of the block: one constructor of `Instr` per row of
spec/opcode_table.json (30_encoding.md R100), the action set some of them take, and the JVS
commands as the dispatcher sees them. -/

namespace Sys2Proof

/-- A resolved axis state (41_map.md R140). -/
inductive Axis where
  | min
  | center
  | max
deriving DecidableEq, Repr, Inhabited

/-- `ACT[p]`: one player's part of the action set; `buttons` has one bit for each index 0 ..
`BUTTON_INDEX_MAX`, 30 bits (41_map.md R140). -/
structure PlayerActions where
  up : Bool
  down : Bool
  left : Bool
  right : Bool
  x : Axis
  y : Axis
  buttons : BitVec 30
  keys : BitVec 256
deriving DecidableEq, Repr, Inhabited

/-- The action set `ACT`: player 1 first, and the sequence of pressed key codes `keyseq`
(41_map.md R140). -/
structure ActionSet where
  players : List PlayerActions
  keyseq : List Byte
deriving DecidableEq, Repr, Inhabited

/-- One command inside an inbound frame's data (30_encoding.md R85), or the unsupported class. -/
inductive Command where
  | reset (a1 : Byte)
  | assignAddr (a1 : Byte)
  | ioIdent
  | cmdRev
  | jvsRev
  | commVer
  | featChk
  | readSwitches (a1 a2 : Byte)
  | readCoins (a1 : Byte)
  | retransmit
  | unsupported (x : Byte)
deriving DecidableEq, Repr, Inhabited

/-- The operations of the block, one constructor per row of spec/opcode_table.json. -/
inductive Instr where
  /-- `SCAN(now)` (40_scan.md R121). -/
  | scan (now : Nat)
  /-- `MAP(v)` (41_map.md R141). -/
  | map (v : List Bool)
  /-- `ENC_JOY(ACT, p)` (42_joystick.md R156). -/
  | encJoy (act : ActionSet) (p : Nat)
  /-- `ENC_KBD(ACT)` (43_keyboard.md R170). -/
  | encKbd (act : ActionSet)
  /-- `POLL(now)` (46_pipeline.md R260). -/
  | poll (now : Nat)
  /-- `RECONFIG(table)` (46_pipeline.md R270). -/
  | reconfig (table : Table)
  /-- `JVS_RX_BYTE(w)` (44_jvs_framing.md R191). -/
  | jvsRxByte (w : Byte)
  /-- `JVS_DISPATCH` (45_jvs_commands.md R220). -/
  | jvsDispatch
  /-- `JVS_TX_FRAME(dest, data)` (44_jvs_framing.md R210). -/
  | jvsTxFrame (dest : Byte) (data : List Byte)
  /-- `SET_SWITCH(player, button, pressed)` (45_jvs_commands.md R245). -/
  | setSwitch (player button : Nat) (pressed : Bool)
  /-- `INC_COIN(slot)` (45_jvs_commands.md R246). -/
  | incCoin (slot : Nat)
  /-- `RESET(a1)` (45_jvs_commands.md R230). -/
  | reset (a1 : Byte)
  /-- `ASSIGN_ADDR(a1)` (45_jvs_commands.md R231). -/
  | assignAddr (a1 : Byte)
  /-- `IOIDENT` (45_jvs_commands.md R232). -/
  | ioIdent
  /-- `CMDREV` (45_jvs_commands.md R233). -/
  | cmdRev
  /-- `JVSREV` (45_jvs_commands.md R234). -/
  | jvsRev
  /-- `COMMVER` (45_jvs_commands.md R235). -/
  | commVer
  /-- `FEATCHK` (45_jvs_commands.md R236). -/
  | featChk
  /-- `READ_SWITCHES(a1, a2)` (45_jvs_commands.md R238). -/
  | readSwitches (a1 a2 : Byte)
  /-- `READ_COINS(a1)` (45_jvs_commands.md R239). -/
  | readCoins (a1 : Byte)
  /-- `RETRANSMIT` (45_jvs_commands.md R240). -/
  | retransmit
  /-- An unsupported command byte (45_jvs_commands.md R241). -/
  | unsupported (x : Byte)
  /-- The wire symbol `SYNC` (44_jvs_framing.md R192). -/
  | sync
  /-- The wire prefix `ESCAPE` with the wire byte after it (44_jvs_framing.md R194). -/
  | escape (w : Byte)
deriving DecidableEq, Repr, Inhabited

/-- The operation a command of a frame is (30_encoding.md R100, rows 12 to 21 and the unsupported
class). -/
def Command.toInstr : Command → Instr
  | .reset a1 => .reset a1
  | .assignAddr a1 => .assignAddr a1
  | .ioIdent => .ioIdent
  | .cmdRev => .cmdRev
  | .jvsRev => .jvsRev
  | .commVer => .commVer
  | .featChk => .featChk
  | .readSwitches a1 a2 => .readSwitches a1 a2
  | .readCoins a1 => .readCoins a1
  | .retransmit => .retransmit
  | .unsupported x => .unsupported x

end Sys2Proof
end

