-- ==== Sys2Proof/WellFormed.lean ====
section
/-! DEFINITION. Which parameter records are configurations of this hardware (10_state.md R41,
70_reset_and_hazards.md R315 point 1) and which operands are values of the operations' types. -/

namespace Sys2Proof

/-- `N_PLAYERS` is 1 or 2, and 2 in `Joystick` mode (00_scope.md R6). -/
def Config.playersOk (c : Config) : Bool :=
  (c.nPlayers == 2) || (c.nPlayers == 1 && c.mode != .joystick)

/-- Every input lies inside `MAP`, no two share a player and slot, and there are no more than the
slots (00_scope.md R6, R315; D5). -/
def Config.inputsOk (c : Config) : Bool :=
  decide (c.inputs.length ≤ c.nPlayers * c.maxPins)
    && c.inputs.all (fun i => decide (1 ≤ i.player ∧ i.player ≤ c.nPlayers ∧ i.slot < c.maxPins))
    && decide ((c.inputs.map (fun i => (i.player, i.slot))).Nodup)

/-- `KBD_SLOTS` is 6 or 12, `KBD_BITMAP_BITS` is 96 or 104 (00_scope.md R6). -/
def KbdPolicy.ok : KbdPolicy → Bool
  | .slot n => n == 6 || n == 12
  | .bitmap n => n == 96 || n == 104

/-- The ten command bytes are pairwise distinct (00_scope.md R6, R315). -/
def JvsOps.distinct (o : JvsOps) : Bool := decide o.toList.Nodup

/-- `JVS_ID_STRING` ends in 0x00 and has at most 100 bytes (00_scope.md R6). -/
def idStringOk (l : List Byte) : Bool := decide (l.length ≤ 100) && (l.getLast? == some 0x00)

/-- The six quantities that the source itself fixes have the source's values (00_scope.md R6, the
rows `MAX_PINS_PER_PLAYER`, `BUTTON_INDEX_MAX`, `JVS_SYNC`, `JVS_ESCAPE`, `JVS_MAX_PAYLOAD` and
`JVS_COIN_MAX`; log 3). -/
def Config.fixedOk (c : Config) : Bool :=
  (c.maxPins == 17) && (c.buttonIndexMax == 29) && (c.jvsSync == 0xE0) && (c.jvsEscape == 0xD0)
    && (c.jvsMaxPayload == 252) && (c.jvsCoinMax == 16383)

/-- A value of the type `Function`: `Button(b)` has `b` in 0 .. `BUTTON_INDEX_MAX` (10_state.md
R28). -/
def Func.ok (c : Config) : Func → Bool
  | .button b => decide (b ≤ c.buttonIndexMax)
  | _ => true

/-- Every switch index of `jvs_switch_of` is below `8 × JVS_SWITCH_BYTES` (00_scope.md R6). -/
def Config.switchOfOk (c : Config) : Bool :=
  c.jvsSwitchOf.all (fun e => decide (e.2 < 8 * c.switchBytes))

/-- The parameter record is a configuration of this hardware (10_state.md R41, R315 point 1). -/
def Config.wf (c : Config) : Bool :=
  c.fixedOk && c.playersOk && c.inputsOk && decide (c.joyButtonCount ≤ 16) && c.kbdPolicy.ok
    && c.ops.distinct && (c.statusSuccess != c.statusUnsupported) && idStringOk c.idString && c.switchOfOk

/-- A complete mapping table: `N_PLAYERS` rows of `MAX_PINS_PER_PLAYER` `Function` values
(46_pipeline.md R270, 10_state.md R27, R28). -/
def tableOk (c : Config) (t : Table) : Bool :=
  (t.length == c.nPlayers)
    && t.all (fun row => (row.length == c.maxPins) && row.all (fun f => f.ok c))

/-- The operands are values of the operation's operand types: a `TS_WIDTH`-bit `now` (R120), a
stable vector of `N_INPUTS` Booleans (R141), an action set of `N_PLAYERS` players (R140) and a
player (R155), a complete table (R270), at most 252 data bytes (R210), an unsupported byte outside
the ten (R241), an escaped wire byte other than `SYNC` (R84). Every `player`, `button` and `slot`
of the side-channel is well formed: an index outside its space has a defined effect (R66). -/
def Instr.wf (c : Config) : Instr → Bool
  | .scan now => decide (now < 2 ^ c.tsWidth)
  | .map v => v.length == c.inputs.length
  | .encJoy act p =>
    (act.players.length == c.nPlayers) && decide (1 ≤ p ∧ p ≤ c.nPlayers)
  | .encKbd act => act.players.length == c.nPlayers
  | .poll now => decide (now < 2 ^ c.tsWidth)
  | .reconfig table => tableOk c table
  | .jvsRxByte _ => true
  | .jvsDispatch => true
  | .jvsTxFrame _ data => decide (data.length ≤ c.jvsMaxPayload)
  | .setSwitch _ _ _ => true
  | .incCoin _ => true
  | .reset _ => true
  | .assignAddr _ => true
  | .ioIdent => true
  | .cmdRev => true
  | .jvsRev => true
  | .commVer => true
  | .featChk => true
  | .readSwitches _ _ => true
  | .readCoins _ => true
  | .retransmit => true
  | .unsupported x => decide (x ∉ c.ops.toList)
  | .sync => true
  | .escape w => w != c.jvsSync

end Sys2Proof
end

