-- ==== Sys2Proof/Decode.lean ====
section
/-! DEFINITION. Decoding and encoding. There are two spaces: the data of an inbound frame, a
sequence of commands (30_encoding.md R85, R86), and the serial wire, a sequence of wire symbols
(R83, R84, R102). Port operations have no encoding (R100). -/

namespace Sys2Proof

/-- Why a byte sequence is not the start of an instruction. -/
inductive DecodeReject where
  /-- There is no byte at all. -/
  | noByte
  /-- A supported command byte whose argument bytes are missing (45_jvs_commands.md R222), or an
  `ESCAPE` with no byte after it. -/
  | incomplete (op : Byte)
  /-- `ESCAPE` directly followed by `SYNC`: no escape pair (30_encoding.md R84). -/
  | syncAfterEscape
deriving DecidableEq, Repr

/-- The two encoding spaces. -/
inductive Space where
  | data
  | wire
deriving DecidableEq, Repr

/-- A command of size 2: its argument byte follows the command byte (30_encoding.md R86). -/
def oneArg (op : Byte) (k : Byte → Command) : List Byte → Except DecodeReject (Command × List Byte)
  | a1 :: rest => .ok (k a1, rest)
  | [] => .error (.incomplete op)

/-- A command of size 3 (30_encoding.md R86). -/
def twoArgs (op : Byte) (k : Byte → Byte → Command) :
    List Byte → Except DecodeReject (Command × List Byte)
  | a1 :: a2 :: rest => .ok (k a1 a2, rest)
  | _ => .error (.incomplete op)

/-- The command at the head of a frame's remaining data, by its command byte (30_encoding.md R85);
every byte that is not one of the ten is the unsupported class, of size 1 (R101). -/
def decodeCommand (c : Config) : List Byte → Except DecodeReject (Command × List Byte)
  | [] => .error .noByte
  | op :: rest =>
    if op = c.ops.reset then oneArg op .reset rest
    else if op = c.ops.assignAddr then oneArg op .assignAddr rest
    else if op = c.ops.ioIdent then .ok (.ioIdent, rest)
    else if op = c.ops.cmdRev then .ok (.cmdRev, rest)
    else if op = c.ops.jvsRev then .ok (.jvsRev, rest)
    else if op = c.ops.commVer then .ok (.commVer, rest)
    else if op = c.ops.featChk then .ok (.featChk, rest)
    else if op = c.ops.readSwitches then twoArgs op .readSwitches rest
    else if op = c.ops.readCoins then oneArg op .readCoins rest
    else if op = c.ops.retransmit then .ok (.retransmit, rest)
    else .ok (.unsupported op, rest)

/-- The wire symbol at the head of the bytes on the line, for a receiver with no escape armed:
`SYNC`, an escape pair, or an ordinary byte for `JVS_RX_BYTE` (30_encoding.md R84, R102). -/
def decodeWire (c : Config) : List Byte → Except DecodeReject (Instr × List Byte)
  | [] => .error .noByte
  | b :: rest =>
    if b = c.jvsSync then .ok (.sync, rest)
    else if b = c.jvsEscape then
      match rest with
      | [] => .error (.incomplete b)
      | w :: rest' => if w = c.jvsSync then .error .syncAfterEscape else .ok (.escape w, rest')
    else .ok (.jvsRxByte b, rest)

/-- The decoder: the instruction at the head of a byte sequence of a space, and the bytes after
it. Total, rejecting by name. -/
def decode (c : Config) : Space → List Byte → Except DecodeReject (Instr × List Byte)
  | .data, bytes =>
    match decodeCommand c bytes with
    | .ok (cmd, rest) => .ok (cmd.toInstr, rest)
    | .error e => .error e
  | .wire, bytes => decodeWire c bytes

/-! ## The encoder -/

/-- A command's bytes: its command byte, then its arguments in order (30_encoding.md R85, R86). -/
def encodeCommand (c : Config) : Command → List Byte
  | .reset a1 => [c.ops.reset, a1]
  | .assignAddr a1 => [c.ops.assignAddr, a1]
  | .ioIdent => [c.ops.ioIdent]
  | .cmdRev => [c.ops.cmdRev]
  | .jvsRev => [c.ops.jvsRev]
  | .commVer => [c.ops.commVer]
  | .featChk => [c.ops.featChk]
  | .readSwitches a1 a2 => [c.ops.readSwitches, a1, a2]
  | .readCoins a1 => [c.ops.readCoins, a1]
  | .retransmit => [c.ops.retransmit]
  | .unsupported x => [x]

/-- The space an instruction is encoded in; none for a port operation (30_encoding.md R100). -/
def Instr.space : Instr → Option Space
  | .scan _ => none
  | .map _ => none
  | .encJoy _ _ => none
  | .encKbd _ => none
  | .poll _ => none
  | .reconfig _ => none
  | .jvsRxByte _ => none
  | .jvsDispatch => none
  | .jvsTxFrame _ _ => none
  | .setSwitch _ _ _ => none
  | .incCoin _ => none
  | .reset _ => some .data
  | .assignAddr _ => some .data
  | .ioIdent => some .data
  | .cmdRev => some .data
  | .jvsRev => some .data
  | .commVer => some .data
  | .featChk => some .data
  | .readSwitches _ _ => some .data
  | .readCoins _ => some .data
  | .retransmit => some .data
  | .unsupported _ => some .data
  | .sync => some .wire
  | .escape _ => some .wire

/-- The bytes of an instruction, in the order they travel; none for a port operation
(30_encoding.md R85, R86, R102). -/
def encode (c : Config) : Instr → Option (List Byte)
  | .scan _ => none
  | .map _ => none
  | .encJoy _ _ => none
  | .encKbd _ => none
  | .poll _ => none
  | .reconfig _ => none
  | .jvsRxByte _ => none
  | .jvsDispatch => none
  | .jvsTxFrame _ _ => none
  | .setSwitch _ _ _ => none
  | .incCoin _ => none
  | .reset a1 => some (encodeCommand c (.reset a1))
  | .assignAddr a1 => some (encodeCommand c (.assignAddr a1))
  | .ioIdent => some (encodeCommand c .ioIdent)
  | .cmdRev => some (encodeCommand c .cmdRev)
  | .jvsRev => some (encodeCommand c .jvsRev)
  | .commVer => some (encodeCommand c .commVer)
  | .featChk => some (encodeCommand c .featChk)
  | .readSwitches a1 a2 => some (encodeCommand c (.readSwitches a1 a2))
  | .readCoins a1 => some (encodeCommand c (.readCoins a1))
  | .retransmit => some (encodeCommand c .retransmit)
  | .unsupported x => some (encodeCommand c (.unsupported x))
  | .sync => some [c.jvsSync]
  | .escape w => some [c.jvsEscape, w]

/-- A JVS program, a list of commands, as the data of a frame: "the concatenation of their bytes"
(30_encoding.md R105). -/
def assemble (c : Config) (program : List Command) : List Byte :=
  program.flatMap (encodeCommand c)

/-- Reading a frame's data back as commands, one after another; `n` bounds their number. Whatever
does not decode ends the list. -/
def disassemble (c : Config) : Nat → List Byte → List Command
  | 0, _ => []
  | n + 1, bytes =>
    match decodeCommand c bytes with
    | .ok (cmd, rest) => cmd :: disassemble c n rest
    | .error _ => []

/-! ## Words of the opcode table -/

/-- The bytes of a table word: a word of `8 × size` bits "with the command byte in the most
significant byte and the last argument byte in the least significant" (30_encoding.md R100), so
the first byte on the wire is the most significant one. -/
def tableBytes (nbits w : Nat) : List Byte :=
  (List.range ((nbits + 7) / 8)).reverse.map (fun k => BitVec.ofNat 8 (w / 2 ^ (8 * k)))

/-- The instruction at the head of a table word's bytes and how many bytes it has. The two wire
symbols have rows of their own, so their first byte is read as a wire symbol; every other word is a
command (log 13). Zero bytes are supplied past the word's end. -/
def decodeTable (c : Config) (bytes : List Byte) : Option (Instr × Nat) :=
  let padded := bytes ++ [0x00, 0x00]
  let ofRest : Except DecodeReject (Instr × List Byte) → Option (Instr × Nat)
    | .ok (i, rest) =>
      if bytes.length ≤ padded.length - rest.length then some (i, padded.length - rest.length)
      else none
    | .error _ => none
  match bytes.head? with
  | none => none
  | some b =>
    if b = c.jvsSync ∨ b = c.jvsEscape then ofRest (decode c .wire padded)
    else ofRest (decode c .data padded)

/-- The instruction of a table word under the default parameters (log 13). -/
def decodeTableWord (nbits w : Nat) : Option Instr :=
  (decodeTable Config.default (tableBytes nbits w)).map Prod.fst

end Sys2Proof
end

