-- ==== Sys2Proof/Machine/State.lean ====
section
/-! DEFINITION. The state of the block: every register of 10_state.md, the hardwired parameter
record, and the model's own fields (the input ports, the acts of the outside still to come, where the
sequencer stands, the last returned value, and the record of what happened at the ports); the
reasons a step can stop; the machine right after reset. -/

namespace Sys2Proof.Machine

open Sys2Proof

/-- The block has no fault mechanism: no trap, handler or vector, and every rule is total
(60_exceptions.md R285, R292; 93, "no entry uses **fault**"). There is no reason to fault (safe). -/
inductive Fault where
deriving DecidableEq, Repr

/-- Why the model gives an invocation no meaning. -/
inductive Refusal where
  /-- An instruction without a meaning yet; raised by `exec` only. Safe. -/
  | notModelled (mnemonic : String)
  /-- The parameter record is no configuration of this hardware (10_state.md R41, 93 U1); raised by
  `step`. Safe: the spec asks for the refusal. -/
  | badConfiguration
  /-- The operation does not exist in a build of this `MODE` (10_state.md R40; 42 "active in
  `Joystick` mode only", 43 "active in `Keyboard` mode only", 44 and 45 "exist in `Jvs` mode
  only"); raised by the operations of one mode. Safe. -/
  | absentInMode (mode : Mode)
  /-- `MAP`'s operand is not a vector of `N_INPUTS` Booleans (41_map.md R141). Safe. -/
  | vectorLength
  /-- `ENC_JOY`'s player is not in 1 .. `N_PLAYERS` or not in the action set (42_joystick.md R155).
  Safe. -/
  | noSuchPlayer
  /-- A table that is not complete (46_pipeline.md R270, 93 U7); raised by `RECONFIG` and by the
  configuration agent's request. Safe. -/
  | incompleteTable
  /-- The configuration agent changes `reconfig_table` while `reconfig_pending` is set
  (70_reset_and_hazards.md R326, 93 U7 "refuse"; log 28); raised by its request. Safe. -/
  | pendingTableChanged
  /-- `JVS_TX_FRAME` with more than 252 data bytes: "not a valid call ... a model refuses it"
  (44_jvs_framing.md R210, 93 U12). Safe. -/
  | dataTooLong
deriving DecidableEq, Repr

/-- `DB[i]` (10_state.md R21, R22). -/
structure Debounce where
  stable : Bool
  lastChange : Nat
deriving DecidableEq, Repr

/-- `rx_state` (10_state.md R33). -/
inductive RxState where
  | waitSync
  | getDestination
  | getLength
  | getData
  | getChecksum
deriving DecidableEq, Repr

/-- The receive registers (10_state.md R33 to R36). -/
structure Rx where
  state : RxState
  escape : Bool
  dest : Byte
  len : Byte
  need : Nat
  count : Nat
  sum : Byte
  buf : List Byte
deriving DecidableEq, Repr

/-- A valid bit and a byte string: `JOY_LAST[p]`, `KBD_LAST`, `last_tx` (10_state.md R30, R31,
R46). -/
structure Last where
  valid : Bool
  bytes : List Byte
deriving DecidableEq, Repr

/-- `proto_state` (10_state.md R38). -/
inductive ProtoState where
  | uninitialized
  | addressed
deriving DecidableEq, Repr

/-- The model's own: what the outside presents at the block's input ports. `high` lists the inputs
whose pin reads `HIGH`; `transport` is the USB transport's side; `serial` is what the next calls of
`SerialRecv` return, in order, as far as the outside has presented it (log 9). -/
structure Ports where
  high : List Nat
  transport : Transport
  serial : List (Option Byte)
deriving DecidableEq, Repr

/-- The model's own: where the sequencer stands in the loop of 46_pipeline.md R260 and R263. -/
inductive Phase where
  /-- At the iteration boundary. -/
  | boundary
  /-- In the receive loop of a `Jvs` iteration. -/
  | receive
  /-- In the walk of a dispatched frame. -/
  | walk
deriving DecidableEq, Repr

/-- `channel` of `TransportSend` (20_memory.md R63). -/
inductive Channel where
  | joy (p : Nat)
  | kbd
deriving DecidableEq, Repr

/-- The two conditions that arise inside the block (60_exceptions.md R280). -/
inductive Condition where
  | checksumError
  | unsupportedCommand (op : Byte)
deriving DecidableEq, Repr

/-- The model's own: one thing that happened at a port (20_memory.md R62 to R64), or a condition
that was raised (00_scope.md section 6, `raise`). -/
inductive Event where
  | gpioRead (pin : Nat) (level : Level)
  | transportSend (channel : Channel) (bytes : List Byte) (ok : Bool)
  | serialSend (wire : List Byte)
  | condition (c : Condition)
deriving DecidableEq, Repr

/-- The model's own: what the last operation that returns something returned. -/
inductive Ret where
  | unit
  | vector (v : List Bool)
  | actions (act : ActionSet)
  | report (bytes : List Byte)
  | rx (complete : Bool)
  | wire (bytes : List Byte)
deriving DecidableEq, Repr

/-- The state of the block. -/
structure State where
  /-- The hardwired parameters, `MODE` among them (10_state.md R40, R41); no operation writes them. -/
  cfg : Config
  /-- `DB`, indexed by input (R21, R22). -/
  db : List Debounce
  /-- `MAP` (R27). -/
  map : Table
  /-- `reconfig_pending` (R48). -/
  reconfigPending : Bool
  /-- `reconfig_table` (R48). -/
  reconfigTable : Table
  /-- `JOY_LAST`, player 1 first (R30). -/
  joyLast : List Last
  /-- `KBD_LAST` (R31). -/
  kbdLast : Last
  /-- The receive registers (R33 to R36). -/
  rx : Rx
  /-- `cmd_ptr` (R47). -/
  cmdPtr : Nat
  /-- `tx_buf` (R37). -/
  txBuf : List Byte
  /-- `proto_state` (R38). -/
  proto : ProtoState
  /-- `device_id` (R39). -/
  deviceId : Byte
  /-- `SW`, player 1 first (R43). -/
  sw : List (List Byte)
  /-- `SYS` (R44). -/
  sys : Byte
  /-- `COIN` (R45). -/
  coin : List Nat
  /-- `last_tx` (R46). -/
  lastTx : Last
  /-- Model's own: the input ports (log 5, log 8, log 9, log 22). -/
  ports : Ports
  /-- Model's own: the acts of the outside still to come (log 5). -/
  script : List Act
  /-- Model's own: how many acts were taken, the free environment's argument (log 5). -/
  tick : Nat
  /-- Model's own: where the sequencer stands (log 6). -/
  phase : Phase
  /-- Model's own: the last returned value (log 7). -/
  ret : Ret
  /-- Model's own: what happened at the ports, oldest first (log 7). Nothing reads it. -/
  trace : List Event
deriving DecidableEq, Repr

/-- `Disabled` in every entry (10_state.md R50). -/
def disabledTable (c : Config) : Table :=
  List.replicate c.nPlayers (List.replicate c.maxPins .disabled)

/-- The receive registers after reset (10_state.md R50). -/
def Rx.reset (c : Config) : Rx where
  state := .waitSync
  escape := false
  dest := 0x00
  len := 0x00
  need := 0
  count := 0
  sum := 0x00
  buf := List.replicate c.jvsMaxPayload 0x00

/-- No report or packet yet: `valid = 0` (10_state.md R50). -/
def Last.none : Last := ⟨false, []⟩

/-- Nothing at the input ports: every pin `LOW`, the transport not configured, nothing
presented on the line (log 27). -/
def Ports.quiet : Ports := ⟨[], ⟨false, false, false, false⟩, []⟩

/-- The block with the parameter record `c` right after reset: 10_state.md R50,
70_reset_and_hazards.md R310. -/
def State.resetWith (c : Config) : State where
  cfg := c
  db := List.replicate c.inputs.length ⟨false, 0⟩
  map := disabledTable c
  reconfigPending := false
  reconfigTable := disabledTable c
  joyLast := List.replicate c.nPlayers Last.none
  kbdLast := Last.none
  rx := Rx.reset c
  cmdPtr := 0
  txBuf := []
  proto := .uninitialized
  deviceId := 0x00
  sw := List.replicate c.jvsPlayers (List.replicate c.switchBytes 0x00)
  sys := 0x00
  coin := List.replicate c.coinSlots 0
  lastTx := Last.none
  ports := Ports.quiet
  script := []
  tick := 0
  phase := .boundary
  ret := .unit
  trace := []

/-- The machine right after reset, with the default parameter record (log 1, log 2). -/
def State.reset : State := State.resetWith Config.default

end Sys2Proof.Machine
end

