-- ==== Sys2Proof/Machine/Operands.lean ====
section
/-! DEFINITION. The operand forms of the block: pin levels and polarity, timer arithmetic, table
entries, axis and report bytes, switch-bit and coin-field positions. -/

namespace Sys2Proof.Machine

open Sys2Proof

/-- `GpioRead` of input `i`'s pin at this scan (20_memory.md R62). -/
def pinLevel (high : List Nat) (i : Nat) : Level := if i ∈ high then .high else .low

/-- Raw pressed: the raw level after the polarity flag (40_scan.md R122). -/
def isPressed (activeLow : Bool) (level : Level) : Bool :=
  if activeLow then level == .low else level == .high

/-- The elapsed time `(now − last_change_time) mod 2^TS_WIDTH` (40_scan.md R123). -/
def elapsed (tsWidth now last : Nat) : Nat :=
  (((now : Int) - (last : Int)) % ((2 ^ tsWidth : Nat) : Int)).toNat

/-- A timestamp as the `TS_WIDTH`-bit port carries it (40_scan.md R120; log 10). -/
def timestamp (c : Config) (now : Nat) : Nat := now % 2 ^ c.tsWidth

/-- `MAP[p][s]`, players from 1 (10_state.md R27). -/
def tableEntry (t : Table) (p s : Nat) : Func := (t.getD (p - 1) []).getD s .disabled

/-- Axis resolution: both directions at once, or neither, is `Center` (41_map.md R142). -/
def resolve (neg pos : Bool) : Axis :=
  if neg && !pos then .min else if pos && !neg then .max else .center

/-- The byte of a resolved axis (42_joystick.md R156, 30_encoding.md R91). -/
def axisByte (c : Config) : Axis → Byte
  | .min => c.joyAxisMin
  | .center => c.joyAxisCenter
  | .max => c.joyAxisMax

/-- `JOY_REPORT_ID[p]` (00_scope.md R6). -/
def joyReportId (c : Config) (p : Nat) : Byte := if p = 1 then c.joyReportId1 else c.joyReportId2

/-- A key code the modifier byte takes: `0xE0 .. 0xE7` when `KBD_MODIFIER_KEYS` (43_keyboard.md
R171). -/
def isModifier (c : Config) (k : Byte) : Bool :=
  c.kbdModifierKeys && decide (0xE0 ≤ k.toNat ∧ k.toNat ≤ 0xE7)

/-- The bit of a switch byte that switch index `s` lives at (30_encoding.md R95). -/
def switchBit (c : Config) (s : Nat) : Nat := if c.switchMsbFirst then 7 - s % 8 else s % 8

/-- A byte with one bit set to a level (45_jvs_commands.md R245). -/
def setBitTo (b : Byte) (bit : Nat) (level : Bool) : Byte :=
  if level then b ||| BitVec.ofNat 8 (2 ^ bit) else b &&& ~~~(BitVec.ofNat 8 (2 ^ bit))

/-- `jvs_switch_of(f)` (46_pipeline.md R266; log 25). -/
def switchOf (c : Config) (f : Func) : Option Nat := c.jvsSwitchOf.lookup f

/-- The two bytes of a coin counter, high byte first, bits 15:14 zero (30_encoding.md R94). -/
def coinBytes (n : Nat) : List Byte := [BitVec.ofNat 8 (n / 256 % 64), BitVec.ofNat 8 (n % 256)]

/-- A byte after the armed escape transform: `(w + 1) mod 256` (30_encoding.md R84). -/
def unescape (w : Byte) : Byte := w + 1

/-- A byte as it travels after the leading `SYNC`: `SYNC` and `ESCAPE` become `ESCAPE, b − 1`
(30_encoding.md R83). -/
def stuff (c : Config) (b : Byte) : List Byte :=
  if b = c.jvsSync ∨ b = c.jvsEscape then [c.jvsEscape, b - 1] else [b]

/-- The sum of a byte string modulo 256 (30_encoding.md R82). -/
def byteSum (l : List Byte) : Byte := l.foldl (fun acc b => acc + b) 0

end Sys2Proof.Machine
end

