-- ==== Sys2Proof/Machine/Flags.lean ====
section
/-! DEFINITION. The one-bit conditions the rules compute (10_state.md section 4). The block has no
arithmetic condition codes (R49): there are the sense output, the addressing test, the change
test and the transport gate. -/

namespace Sys2Proof.Machine

open Sys2Proof

/-- The sense output: `sense = (proto_state == Addressed)` at all times (10_state.md R42,
20_memory.md R69). -/
def State.sense (s : State) : Bool := s.proto == .addressed

/-- The addressing test of the dispatcher: broadcast, or the assigned id while `Addressed`
(45_jvs_commands.md R220; 20_memory.md R68). -/
def State.isAddressed (s : State) : Bool :=
  (s.rx.dest == s.cfg.broadcastAddr) || (s.sense && (s.rx.dest == s.deviceId))

/-- The change test: a report differs from the last one handed over, or there is none
(46_pipeline.md R264). -/
def Last.differs (l : Last) (r : List Byte) : Bool := !(l.valid && (l.bytes == r))

/-- A byte is an `ESCAPE` prefix for a receiver with no escape armed, inside a frame
(44_jvs_framing.md R194). -/
def Rx.isPrefix (r : Rx) (c : Config) (w : Byte) : Bool := (w == c.jvsEscape) && !r.escape

/-- A declared length outside 1 .. `JVS_MAX_PAYLOAD` + 1 (30_encoding.md R81, 44_jvs_framing.md
R196). -/
def badLength (c : Config) (b : Byte) : Bool := (b == 0) || decide (c.jvsMaxPayload < b.toNat - 1)

end Sys2Proof.Machine
end

