-- ==== Sys2Proof/Machine/Ops.lean ====
section
/-! DEFINITION. The named operations the meanings are written over: the updates of State, the ports,
the frame format, the entry of the two conditions, the building and ending of an answer. -/

namespace Sys2Proof.Machine

open Sys2Proof

/-- What a step of the block answers. -/
abbrev Result := Host.Outcome State Fault Refusal

/-! ## Updates of State -/

/-- What happened at a port is appended to the record (log 7). -/
def State.emit (s : State) (es : List Event) : State := { s with trace := s.trace ++ es }

/-- The value an operation returns (log 7). -/
def State.withRet (s : State) (r : Ret) : State := { s with ret := r }

/-- Where the sequencer stands (log 6). -/
def State.withPhase (s : State) (p : Phase) : State := { s with phase := p }

/-- The receive registers. -/
def State.withRx (s : State) (r : Rx) : State := { s with rx := r }

/-- `tx_buf`. -/
def State.withTx (s : State) (b : List Byte) : State := { s with txBuf := b }

/-- The serial bytes still to be received. -/
def State.withSerial (s : State) (l : List (Option Byte)) : State :=
  { s with ports := { s.ports with serial := l } }

/-- An operation of one mode: in a build of another mode it does not exist (10_state.md R40;
log 11). -/
def onlyIn (m : Mode) (s : State) (t : State) : Result :=
  if s.cfg.mode = m then .next t else .refused (.absentInMode s.cfg.mode)

/-- One operation after another: the second runs on the state the first leaves. -/
def andThen (r : Result) (k : State → Result) : Result :=
  match r with
  | .next s => k s
  | .fault f => .fault f
  | .refused e => .refused e

/-! ## The frame format and the serial port -/

/-- A frame's bytes before stuffing, without `SYNC`: destination, length, data, checksum
(30_encoding.md R80 to R82). -/
def frameBody (dest : Byte) (data : List Byte) : List Byte :=
  let body := [dest, BitVec.ofNat 8 (data.length + 1)] ++ data
  body ++ [byteSum body]

/-- A frame's wire bytes (30_encoding.md R83, 44_jvs_framing.md R210). -/
def wireFrame (c : Config) (dest : Byte) (data : List Byte) : List Byte :=
  c.jvsSync :: (frameBody dest data).flatMap (stuff c)

/-- `JVS_TX_FRAME(JVS_MASTER_ADDR, data)` inside a dispatch: one whole frame is handed to the serial
port (30_encoding.md R87, 20_memory.md R64). -/
def sendToMaster (s : State) (data : List Byte) : State :=
  s.emit [.serialSend (wireFrame s.cfg s.cfg.masterAddr data)]

/-! ## The end of an iteration, and of a dispatch -/

/-- The iteration ends: the sequencer is back at the boundary (46_pipeline.md R260, R263). -/
def endIteration (s : State) : State := (s.withPhase .boundary).withRet .unit

/-- The end of a dispatch that built a packet: it is recorded in `last_tx`, sent to the bus master,
and the iteration ends (45_jvs_commands.md R224). -/
def endDispatch (s : State) : State :=
  endIteration (sendToMaster { s with lastTx := ⟨true, s.txBuf⟩ } s.txBuf)

/-! ## Taking a condition. There is no return from one (60_exceptions.md R292, R293). -/

/-- Entry of `ChecksumError`: the decoder is back in `WaitSync` and nothing else changes
(60_exceptions.md R281). -/
def raiseChecksumError (s : State) : State :=
  (s.withRx { s.rx with state := .waitSync }).emit [.condition .checksumError]

/-- Entry of `UnsupportedCommand(op)`: the response is truncated to the one status byte, the walk
stops, the packet is recorded and sent (60_exceptions.md R282, 45_jvs_commands.md R241). -/
def raiseUnsupported (op : Byte) (s : State) : State :=
  endDispatch ((s.emit [.condition (.unsupportedCommand op)]).withTx [s.cfg.statusUnsupported])

/-! ## The walk of a frame's commands -/

/-- A command's response as it is appended: the body, after one status byte when
`JVS_PER_COMMAND_REPORT` (45_jvs_commands.md R227). -/
def responseOf (c : Config) (body : List Byte) : List Byte :=
  if c.perCommandReport then c.statusSuccess :: body else body

/-- The response of a command of `size` bytes whose side effects have happened: its body is
appended and `cmd_ptr` moves past it; a packet longer than `JVS_MAX_PAYLOAD` is treated as an
unsupported command (45_jvs_commands.md R220, R221, R223). -/
def respond (op : Byte) (size : Nat) (body : List Byte) (s : State) : State :=
  if s.cfg.jvsMaxPayload < s.txBuf.length + (responseOf s.cfg body).length then
    raiseUnsupported op s
  else { s with txBuf := s.txBuf ++ responseOf s.cfg body, cmdPtr := s.cmdPtr + size }

/-- The start of a dispatch: an addressed frame gets a packet with its status byte and a walk from
the first command; any other frame is dropped whole (45_jvs_commands.md R220, R225). -/
def startDispatch (s : State) : State :=
  if s.isAddressed then { s with txBuf := [s.cfg.statusSuccess], cmdPtr := 0, phase := .walk }
  else endIteration s

/-- The bytes of the frame from `cmd_ptr` to `rx_count` (30_encoding.md R86). -/
def pendingBytes (s : State) : List Byte := (s.rx.buf.take s.rx.count).drop s.cmdPtr

/-- The command at `cmd_ptr`; a supported command byte without all its argument bytes is an
unsupported command (45_jvs_commands.md R221, R222). -/
def commandAt (s : State) : Command :=
  match decodeCommand s.cfg (pendingBytes s) with
  | .ok (cmd, _) => cmd
  | .error _ => .unsupported ((pendingBytes s).headD 0x00)

/-! ## Change detection -/

/-- `send_if_changed(LAST, channel, r)`, given the transport's bit `configured` and its answer on the
channel: the last-sent register after it and what it hands to the transport (46_pipeline.md
R264). -/
def sendIfChanged (l : Last) (configured ok : Bool) (ch : Channel) (r : List Byte) :
    Last × List Event :=
  if l.differs r && configured then
    if ok then (⟨true, r⟩, [.transportSend ch r true])
    else (l, [.transportSend ch r false])
  else (l, [])

end Sys2Proof.Machine
end

