-- ==== Sys2Proof/Machine/Joystick.lean ====
section
/-! DEFINITION. The USB HID gamepad report encoder: `ENC_JOY` (42_joystick.md). -/

namespace Sys2Proof.Machine

open Sys2Proof

/-- The `buttons` field: bits 15:0 of the pressed set, cleared at and above `JOY_BUTTON_COUNT`
(42_joystick.md R156, R157). -/
def buttonField (c : Config) (buttons : BitVec 30) : BitVec 16 :=
  buttons.setWidth 16 &&& BitVec.ofNat 16 (2 ^ (min c.joyButtonCount 16) - 1)

/-- The joystick report of player `p`: report id if any, x, y, buttons low byte first
(42_joystick.md R156, 30_encoding.md R90). -/
def joyReport (c : Config) (a : PlayerActions) (p : Nat) : List Byte :=
  let b16 := buttonField c a.buttons
  let body := [axisByte c a.x, axisByte c a.y, b16.extractLsb' 0 8, b16.extractLsb' 8 8]
  if c.joyHasReportId then joyReportId c p :: body else body

/-- The length of a joystick report: 5 bytes with a report id, 4 without (30_encoding.md R90). -/
def joyReportLength (c : Config) : Nat := if c.joyHasReportId then 5 else 4

/-- `ENC_JOY(ACT, p)` (42_joystick.md R156): returns the report and writes no register. -/
def execEncJoy (act : ActionSet) (p : Nat) (s : State) : Result :=
  if 1 ≤ p ∧ p ≤ s.cfg.nPlayers then
    match act.players[p - 1]? with
    | some a => onlyIn .joystick s (s.withRet (.report (joyReport s.cfg a p)))
    | none => .refused .noSuchPlayer
  else .refused .noSuchPlayer

end Sys2Proof.Machine
end

