-- ==== Sys2Proof/Machine/JvsCommands.lean ====
section
/-! DEFINITION. The ten JVS commands and the unsupported class (45_jvs_commands.md R230 to R241).
Each is what executing the command at `cmd_ptr` does in a dispatch: its side effects, then its
response. -/

namespace Sys2Proof.Machine

open Sys2Proof

/-- `RESET(a1)` (45_jvs_commands.md R230): the id is cleared, the sense line de-asserted; `a1` is
not examined. -/
def execReset (_a1 : Byte) (s : State) : Result :=
  onlyIn .jvs s
    (respond s.cfg.ops.reset 2 [] { s with proto := .uninitialized, deviceId := 0x00 })

/-- `ASSIGN_ADDR(a1)` (45_jvs_commands.md R231): unconditional; the sense line is asserted. -/
def execAssignAddr (a1 : Byte) (s : State) : Result :=
  onlyIn .jvs s (respond s.cfg.ops.assignAddr 2 [] { s with proto := .addressed, deviceId := a1 })

/-- `IOIDENT` (45_jvs_commands.md R232). -/
def execIoIdent (s : State) : Result :=
  onlyIn .jvs s (respond s.cfg.ops.ioIdent 1 s.cfg.idString s)

/-- `CMDREV` (45_jvs_commands.md R233). -/
def execCmdRev (s : State) : Result :=
  onlyIn .jvs s (respond s.cfg.ops.cmdRev 1 [s.cfg.cmdRev] s)

/-- `JVSREV` (45_jvs_commands.md R234). -/
def execJvsRev (s : State) : Result :=
  onlyIn .jvs s (respond s.cfg.ops.jvsRev 1 [s.cfg.jvsRev] s)

/-- `COMMVER` (45_jvs_commands.md R235). -/
def execCommVer (s : State) : Result :=
  onlyIn .jvs s (respond s.cfg.ops.commVer 1 [s.cfg.commVer] s)

/-- `FEATCHK` (45_jvs_commands.md R236). -/
def execFeatChk (s : State) : Result :=
  onlyIn .jvs s (respond s.cfg.ops.featChk 1 s.cfg.features s)

/-- The switch byte of player `p` (from 1) at position `y`; a player or byte the block does not
hold reads 0x00 (45_jvs_commands.md R238). -/
def switchByte (s : State) (p y : Nat) : Byte :=
  if p ≤ s.cfg.jvsPlayers ∧ y < s.cfg.switchBytes then (s.sw.getD (p - 1) []).getD y 0x00 else 0x00

/-- The body of `READ_SWITCHES(a1, a2)`: `SYS`, then the players' bytes in order
(45_jvs_commands.md R238). -/
def switchBody (s : State) (a1 a2 : Nat) : List Byte :=
  s.sys :: (List.range a1).flatMap (fun k => (List.range a2).map (fun y => switchByte s (k + 1) y))

/-- `READ_SWITCHES(a1, a2)` (45_jvs_commands.md R238). -/
def execReadSwitches (a1 a2 : Byte) (s : State) : Result :=
  onlyIn .jvs s (respond s.cfg.ops.readSwitches 3 (switchBody s a1.toNat a2.toNat) s)

/-- The coin counter of a slot; a slot the block does not hold reads 0 (45_jvs_commands.md R239). -/
def coinCount (s : State) (slot : Nat) : Nat :=
  if slot < s.cfg.coinSlots then s.coin.getD slot 0 else 0

/-- The body of `READ_COINS(a1)` (45_jvs_commands.md R239). -/
def coinBody (s : State) (a1 : Nat) : List Byte :=
  (List.range a1).flatMap (fun slot => coinBytes (coinCount s slot))

/-- `READ_COINS(a1)` (45_jvs_commands.md R239): reading clears nothing. -/
def execReadCoins (a1 : Byte) (s : State) : Result :=
  onlyIn .jvs s (respond s.cfg.ops.readCoins 2 (coinBody s a1.toNat) s)

/-- The previous packet is sent again, if there is one, and the dispatch ends without rewriting
`last_tx` (45_jvs_commands.md R240). -/
def resend (s : State) : State :=
  endIteration (if s.lastTx.valid then sendToMaster s s.lastTx.bytes else s)

/-- `RETRANSMIT` (45_jvs_commands.md R240). -/
def execRetransmit (s : State) : Result := onlyIn .jvs s (resend s)

/-- An unsupported command byte (45_jvs_commands.md R241): the condition `UnsupportedCommand` is
taken. -/
def execUnsupported (x : Byte) (s : State) : Result := onlyIn .jvs s (raiseUnsupported x s)

end Sys2Proof.Machine
end

