-- ==== Sys2Proof/Machine/JvsDispatch.lean ====
section
/-! DEFINITION. The JVS command dispatcher: `JVS_DISPATCH` (45_jvs_commands.md R220). -/

namespace Sys2Proof.Machine

open Sys2Proof

/-- The meaning of a command of a frame (30_encoding.md R100, rows 12 to 21 and the unsupported
class). -/
def execCommand (cmd : Command) (s : State) : Result :=
  match cmd with
  | .reset a1 => execReset a1 s
  | .assignAddr a1 => execAssignAddr a1 s
  | .ioIdent => execIoIdent s
  | .cmdRev => execCmdRev s
  | .jvsRev => execJvsRev s
  | .commVer => execCommVer s
  | .featChk => execFeatChk s
  | .readSwitches a1 a2 => execReadSwitches a1 a2 s
  | .readCoins a1 => execReadCoins a1 s
  | .retransmit => execRetransmit s
  | .unsupported x => execUnsupported x s

/-- The walk over the frame's commands from `cmd_ptr` (45_jvs_commands.md R220, R221): commands in
the order of their bytes, each seeing the effects of those before it; it ends when `cmd_ptr`
reaches `rx_count`, or when a command ended the dispatch. Every command takes at least one byte,
so `n` at least the number of bytes left is enough. -/
def walkFrame : Nat → State → Result
  | 0, s => .next (if s.phase = .walk then endDispatch s else s)
  | n + 1, s =>
    if s.phase = .walk then
      if s.cmdPtr < s.rx.count then andThen (execCommand (commandAt s) s) (walkFrame n)
      else .next (endDispatch s)
    else .next s

/-- `JVS_DISPATCH` (45_jvs_commands.md R220): addressing is tested once, before the walk. -/
def execJvsDispatch (s : State) : Result :=
  andThen (onlyIn .jvs s (startDispatch s)) (walkFrame s.rx.count)

end Sys2Proof.Machine
end

