-- ==== Sys2Proof/Machine/JvsFraming.lean ====
section
/-! DEFINITION. The JVS packet decoder and encoder: `JVS_RX_BYTE`, `JVS_TX_FRAME`, and the wire
symbols `SYNC` and `ESCAPE` (44_jvs_framing.md). -/

namespace Sys2Proof.Machine

open Sys2Proof

/-- What one wire byte leads to: nothing, a complete frame, or a checksum failure
(44_jvs_framing.md R190, R198). -/
inductive RxResult where
  | none
  | complete
  | checksumError
deriving DecidableEq, Repr

/-- Start of frame, in every state (44_jvs_framing.md R192). -/
def rxSync (r : Rx) : Rx :=
  { r with state := .getDestination, escape := false, sum := 0x00, count := 0 }

/-- The length byte `b`: 1 .. 253 opens the data (or, with no data, the checksum); any other
declared length discards the frame (44_jvs_framing.md R196). -/
def rxLength (c : Config) (b : Byte) (r : Rx) : Rx :=
  let r := { r with len := b, sum := r.sum + b }
  if badLength c b then { r with state := .waitSync }
  else
    { r with
      need := b.toNat - 1
      count := 0
      state := if b.toNat - 1 = 0 then .getChecksum else .getData }

/-- One data byte `b` (44_jvs_framing.md R197). -/
def rxData (b : Byte) (r : Rx) : Rx :=
  { r with
    buf := r.buf.set r.count b
    count := r.count + 1
    sum := r.sum + b
    state := if r.count + 1 = r.need then .getChecksum else .getData }

/-- The state's own action on a transformed byte `b` (44_jvs_framing.md R191 point 4, R195 to
R198). -/
def rxOrdinary (c : Config) (b : Byte) (r : Rx) : Rx × RxResult :=
  match r.state with
  | .waitSync => (r, .none)
  | .getDestination => ({ r with dest := b, sum := b, state := .getLength }, .none)
  | .getLength => (rxLength c b r, .none)
  | .getData => (rxData b r, .none)
  | .getChecksum =>
    ({ r with state := .waitSync }, if b = r.sum then .complete else .checksumError)

/-- `JVS_RX_BYTE(w)` on the receive registers: the four tests in the order of 44_jvs_framing.md
R191. -/
def rxByte (c : Config) (w : Byte) (r : Rx) : Rx × RxResult :=
  if w = c.jvsSync then (rxSync r, .none)
  else if r.state = .waitSync then (r, .none)
  else if r.isPrefix c w then ({ r with escape := true }, .none)
  else rxOrdinary c (if r.escape then unescape w else w) { r with escape := false }

/-- `JVS_RX_BYTE(w)` on the state: it returns whether a frame is complete, and takes a
`ChecksumError` where the decoder finds one (44_jvs_framing.md R191, 60_exceptions.md R281). -/
def receiveByte (w : Byte) (s : State) : State :=
  let p := rxByte s.cfg w s.rx
  match p.2 with
  | .none => (s.withRx p.1).withRet (.rx false)
  | .complete => (s.withRx p.1).withRet (.rx true)
  | .checksumError => (raiseChecksumError (s.withRx p.1)).withRet (.rx false)

/-- The last operation returned `FrameComplete` (44_jvs_framing.md R190). -/
def frameComplete (s : State) : Bool := s.ret == .rx true

/-- `JVS_RX_BYTE(w)` (44_jvs_framing.md R191). -/
def execJvsRxByte (w : Byte) (s : State) : Result := onlyIn .jvs s (receiveByte w s)

/-- The wire symbol `SYNC` (44_jvs_framing.md R192): a start of frame in every state. -/
def execSync (s : State) : Result := onlyIn .jvs s (receiveByte s.cfg.jvsSync s)

/-- The wire prefix `ESCAPE` and the byte `w` after it (44_jvs_framing.md R194): the two bytes are
received one after the other; a frame is complete if either completes it (log 14). -/
def execEscape (w : Byte) (s : State) : Result :=
  let t := receiveByte s.cfg.jvsEscape s
  let u := receiveByte w t
  onlyIn .jvs s (u.withRet (.rx (frameComplete t || frameComplete u)))

/-- `JVS_TX_FRAME(dest, data)` (44_jvs_framing.md R210): the wire bytes are handed to the serial
port and returned; no register is written. -/
def execJvsTxFrame (dest : Byte) (data : List Byte) (s : State) : Result :=
  if data.length ≤ s.cfg.jvsMaxPayload then
    let wire := wireFrame s.cfg dest data
    onlyIn .jvs s ((s.emit [.serialSend wire]).withRet (.wire wire))
  else .refused .dataTooLong

end Sys2Proof.Machine
end

