-- ==== Sys2Proof/Machine/Keyboard.lean ====
section
/-! DEFINITION. The USB NKRO/6KRO keyboard report encoder: `ENC_KBD` (43_keyboard.md). -/

namespace Sys2Proof.Machine

open Sys2Proof

/-- The key codes pressed by any player (43_keyboard.md R170). -/
def allKeys (act : ActionSet) : BitVec 256 := act.players.foldl (fun acc a => acc ||| a.keys) 0

/-- The `modifiers` byte: bit `j` set iff key code `0xE0 + j` is pressed (43_keyboard.md R171). -/
def modifierByte (c : Config) (act : ActionSet) : Byte :=
  if c.kbdModifierKeys then (allKeys act).extractLsb' 0xE0 8 else 0x00

/-- One key of the slot policy against the slots filled so far: key code zero, modifiers,
duplicates and whatever comes once the slots are full are passed over (43_keyboard.md R172 to
R174, R177). -/
def takeSlot (c : Config) (n : Nat) (filled : List Byte) (k : Byte) : List Byte :=
  if k = 0x00 then filled
  else if isModifier c k then filled
  else if k ∈ filled then filled
  else if filled.length < n then filled ++ [k]
  else filled

/-- The slot array: first come in `keyseq`, empty slots 0x00 at the end (43_keyboard.md R172). -/
def slotKeys (c : Config) (n : Nat) (act : ActionSet) : List Byte :=
  let filled := act.keyseq.foldl (takeSlot c n) []
  filled ++ List.replicate (n - filled.length) 0x00

/-- Key code `k` has its bit in the bitmap (43_keyboard.md R175 to R177). -/
def inBitmap (c : Config) (keys : BitVec 256) (k : Nat) : Bool :=
  keys.getLsbD k && (k != 0) && !isModifier c (BitVec.ofNat 8 k)

/-- Byte `j` of the bitmap: key code `k` at bit `k mod 8` of byte `k div 8` (20_memory.md R65). -/
def bitmapByte (c : Config) (keys : BitVec 256) (j : Nat) : Byte :=
  (List.range 8).foldl
    (fun acc b => if inBitmap c keys (8 * j + b) then acc ||| BitVec.ofNat 8 (2 ^ b) else acc) 0x00

/-- The bitmap of `bits / 8` bytes; a key code at or above `bits` has no bit (43_keyboard.md R175,
R176). -/
def bitmapKeys (c : Config) (bits : Nat) (act : ActionSet) : List Byte :=
  (List.range (bits / 8)).map (bitmapByte c (allKeys act))

/-- The `keys` array by policy (43_keyboard.md R170). -/
def keyArray (c : Config) (act : ActionSet) : List Byte :=
  match c.kbdPolicy with
  | .slot n => slotKeys c n act
  | .bitmap bits => bitmapKeys c bits act

/-- The keyboard report: report id if any, modifiers, the reserved 0x00, keys (43_keyboard.md R170,
30_encoding.md R92). -/
def kbdReport (c : Config) (act : ActionSet) : List Byte :=
  let body := [modifierByte c act, 0x00] ++ keyArray c act
  if c.kbdHasReportId then c.kbdReportId :: body else body

/-- The length of a keyboard report (30_encoding.md R92). -/
def kbdReportLength (c : Config) : Nat :=
  (match c.kbdPolicy with
    | .slot n => n
    | .bitmap bits => bits / 8) + 2 + (if c.kbdHasReportId then 1 else 0)

/-- `ENC_KBD(ACT)` (43_keyboard.md R170): returns the report and writes no register. -/
def execEncKbd (act : ActionSet) (s : State) : Result :=
  onlyIn .keyboard s (s.withRet (.report (kbdReport s.cfg act)))

end Sys2Proof.Machine
end

