-- ==== Sys2Proof/Machine/Map.lean ====
section
/-! DEFINITION. The function mapper: `MAP` (41_map.md). -/

namespace Sys2Proof.Machine

open Sys2Proof

/-- The pressed inputs' players and functions, in increasing input index (41_map.md R141). -/
def pressedFuncs (c : Config) (t : Table) (v : List Bool) : List (Nat × Func) :=
  ((c.inputs.zip v).filter (fun e => e.2)).map
    (fun e => (e.1.player, tableEntry t e.1.player e.1.slot))

/-- The bit of a pressed button (41_map.md R140). -/
def buttonBit : Func → BitVec 30
  | .button b => BitVec.ofNat 30 (2 ^ b)
  | _ => 0

/-- The bit of a pressed key code (41_map.md R140). -/
def keyBit : Func → BitVec 256
  | .keyCode k => BitVec.ofNat 256 (2 ^ k.toNat)
  | _ => 0

/-- The key code of a function, if it is one. -/
def keyOf : Func → Option Byte
  | .keyCode k => some k
  | _ => none

/-- `ACT[p]` from the functions of player `p`'s pressed inputs (41_map.md R141, R142). -/
def playerActions (fs : List Func) : PlayerActions :=
  let up := decide (Func.axisUp ∈ fs)
  let down := decide (Func.axisDown ∈ fs)
  let left := decide (Func.axisLeft ∈ fs)
  let right := decide (Func.axisRight ∈ fs)
  { up := up, down := down, left := left, right := right
    x := resolve left right
    y := resolve up down
    buttons := fs.foldl (fun acc f => acc ||| buttonBit f) 0
    keys := fs.foldl (fun acc f => acc ||| keyBit f) 0 }

/-- The functions of player `p` among the pressed ones. -/
def funcsOf (p : Nat) (fs : List (Nat × Func)) : List Func :=
  (fs.filter (fun e => e.1 == p)).map (fun e => e.2)

/-- `MAP(v)`: a pure function of the stable vector and the mapping table (41_map.md R141). -/
def mapActions (c : Config) (t : Table) (v : List Bool) : ActionSet :=
  let fs := pressedFuncs c t v
  { players := (List.range c.nPlayers).map (fun k => playerActions (funcsOf (k + 1) fs))
    keyseq := fs.filterMap (fun e => keyOf e.2) }

/-- `MAP(v)` (41_map.md R141): returns the action set and writes no register. -/
def execMap (v : List Bool) (s : State) : Result :=
  if v.length = s.cfg.inputs.length then .next (s.withRet (.actions (mapActions s.cfg s.map v)))
  else .refused .vectorLength

end Sys2Proof.Machine
end

