-- ==== Sys2Proof/Machine/Scan.lean ====
section
/-! DEFINITION. The debounce timer and switch-state scanner: `SCAN` (40_scan.md). -/

namespace Sys2Proof.Machine

open Sys2Proof

/-- One input of one scan: a matching sample sets the timer, a mismatch commits once it has lasted
`DEBOUNCE_TIME_MS` since the last matching sample, and otherwise holds (40_scan.md R121). -/
def debounce (c : Config) (now : Nat) (pressed : Bool) (d : Debounce) : Debounce :=
  if pressed = d.stable then { d with lastChange := now }
  else if c.debounceMs ≤ elapsed c.tsWidth now d.lastChange then ⟨pressed, now⟩
  else d

/-- Raw pressed of input `i` at this scan (40_scan.md R121, R122). -/
def rawPressed (inp : Input) (high : List Nat) (i : Nat) : Bool :=
  isPressed inp.activeLow (pinLevel high i)

/-- `DB` after a scan: every input on its own (40_scan.md R121). -/
def scanDb (c : Config) (high : List Nat) (now : Nat) (db : List Debounce) : List Debounce :=
  c.inputs.zipIdx.map fun e =>
    debounce c now (rawPressed e.1 high e.2) (db.getD e.2 ⟨false, 0⟩)

/-- The `GpioRead` calls of a scan: each input's pin exactly once, in increasing input index
(20_memory.md R62, 40_scan.md R121). -/
def scanReads (c : Config) (high : List Nat) : List Event :=
  c.inputs.zipIdx.map fun e => .gpioRead e.1.pin (pinLevel high e.2)

/-- The state after `SCAN(now)`. -/
def scanned (now : Nat) (s : State) : State :=
  { s with db := scanDb s.cfg s.ports.high (timestamp s.cfg now) s.db }.emit
    (scanReads s.cfg s.ports.high)

/-- The stable vector (40_scan.md R120). -/
def stableVector (s : State) : List Bool := s.db.map (fun d => d.stable)

/-- `SCAN(now)` (40_scan.md R121): returns the stable vector. -/
def execScan (now : Nat) (s : State) : Result :=
  .next ((scanned now s).withRet (.vector (stableVector (scanned now s))))

end Sys2Proof.Machine
end

