-- ==== Sys2Proof/Machine/SideChannel.lean ====
section
/-! DEFINITION. The input side-channel: `SET_SWITCH` and `INC_COIN` (45_jvs_commands.md R245,
R246). -/

namespace Sys2Proof.Machine

open Sys2Proof

/-- `SW` with one bit set to a level; an index outside `SW` has no effect (45_jvs_commands.md
R245). -/
def switchesWith (c : Config) (player button : Nat) (pressed : Bool) (sw : List (List Byte)) :
    List (List Byte) :=
  if 1 ≤ player ∧ player ≤ c.jvsPlayers ∧ button < 8 * c.switchBytes then
    sw.modify (player - 1) fun row =>
      row.modify (button / 8) fun b => setBitTo b (switchBit c button) pressed
  else sw

/-- The state after `SET_SWITCH(player, button, pressed)`. -/
def switchSet (player button : Nat) (pressed : Bool) (s : State) : State :=
  { s with sw := switchesWith s.cfg player button pressed s.sw }

/-- `SET_SWITCH(player, button, pressed)` (45_jvs_commands.md R245). -/
def execSetSwitch (player button : Nat) (pressed : Bool) (s : State) : Result :=
  onlyIn .jvs s (switchSet player button pressed s)

/-- `COIN` with one counter advanced, saturating at `JVS_COIN_MAX`; a slot outside `COIN` has no effect
(45_jvs_commands.md R246). -/
def coinsWith (c : Config) (slot : Nat) (coin : List Nat) : List Nat :=
  if slot < c.coinSlots then coin.modify slot (fun n => min (n + 1) c.jvsCoinMax) else coin

/-- `INC_COIN(slot)` (45_jvs_commands.md R246). -/
def execIncCoin (slot : Nat) (s : State) : Result :=
  onlyIn .jvs s { s with coin := coinsWith s.cfg slot s.coin }

end Sys2Proof.Machine
end

