-- ==== Sys2Proof/Machine/Pipeline.lean ====
section
/-! DEFINITION. The poll sequencer: `POLL` in its three variants, and `RECONFIG`
(46_pipeline.md). -/

namespace Sys2Proof.Machine

open Sys2Proof

/-- The action set of this iteration, from the stable vector the scan left (46_pipeline.md R261 to
R263). -/
def currentActions (s : State) : ActionSet := mapActions s.cfg s.map (stableVector s)

/-- What `TransportSend` answers on player `p`'s channel. -/
def joyOk (t : Transport) (p : Nat) : Bool := if p = 1 then t.joy1Ok else t.joy2Ok

/-- Player `p`'s report against its last-sent register (46_pipeline.md R261, R264). -/
def offerJoy (p : Nat) (r : List Byte) (s : State) : State :=
  let o := sendIfChanged (s.joyLast.getD (p - 1) Last.none) s.ports.transport.configured
    (joyOk s.ports.transport p) (.joy p) r
  { s with joyLast := s.joyLast.set (p - 1) o.1 }.emit o.2

/-- The keyboard report against its last-sent register (46_pipeline.md R262, R264). -/
def offerKbd (r : List Byte) (s : State) : State :=
  let t := s.ports.transport
  let o := sendIfChanged s.kbdLast t.configured t.kbdOk .kbd r
  { s with kbdLast := o.1 }.emit o.2

/-- `POLL(now)` in `Joystick` mode: one report per player, player 1 first (46_pipeline.md R261). -/
def pollJoystick (now : Nat) (s : State) : State :=
  let s1 := scanned now s
  endIteration ((currentActions s1).players.zipIdx.foldl
    (fun t e => offerJoy (e.2 + 1) (joyReport s.cfg e.1 (e.2 + 1)) t) s1)

/-- `POLL(now)` in `Keyboard` mode (46_pipeline.md R262). -/
def pollKeyboard (now : Nat) (s : State) : State :=
  let s1 := scanned now s
  endIteration (offerKbd (kbdReport s.cfg (currentActions s1)) s1)

/-- One input of `jvs_update_switches`: its switch, if its function has one, takes its stable level
(46_pipeline.md R266). -/
def glueInput (s : State) (e : Input × Bool) : State :=
  match switchOf s.cfg (tableEntry s.map e.1.player e.1.slot) with
  | some button => switchSet e.1.player button e.2 s
  | none => s

/-- `jvs_update_switches(v)`, in increasing input index (46_pipeline.md R266). -/
def updateSwitches (v : List Bool) (s : State) : State := (s.cfg.inputs.zip v).foldl glueInput s

/-- The part of a `Jvs` iteration before the receive loop: scan, map, and the switches from the
stable vector (46_pipeline.md R263). -/
def pollStart (now : Nat) (s : State) : State :=
  let s1 := scanned now s
  (updateSwitches (stableVector s1) s1).withPhase .receive

/-- The receive loop of a `Jvs` iteration over the results presented on the line: a time-out ends the
iteration, a complete frame is dispatched and ends it (46_pipeline.md R263). Where they run out
first, the iteration has not ended and the block is still receiving (70_reset_and_hazards.md R329;
log 9). -/
def receiveLoop : List (Option Byte) → State → Result
  | [], s => .next (s.withSerial [])
  | none :: rest, s => .next (endIteration (s.withSerial rest))
  | some b :: rest, s =>
    andThen (execJvsRxByte b (s.withSerial rest)) fun t =>
      if frameComplete t then execJvsDispatch t else receiveLoop rest t

/-- `POLL(now)` (46_pipeline.md R260): the variant of the build's mode (R261, R262, R263). -/
def execPoll (now : Nat) (s : State) : Result :=
  match s.cfg.mode with
  | .joystick => .next (pollJoystick now s)
  | .keyboard => .next (pollKeyboard now s)
  | .jvs => receiveLoop s.ports.serial (pollStart now s)

/-- `RECONFIG(table)` (46_pipeline.md R270): the whole of `MAP` at once, and the flag is cleared. -/
def execReconfig (table : Table) (s : State) : Result :=
  if tableOk s.cfg table then .next { s with map := table, reconfigPending := false }
  else .refused .incompleteTable

end Sys2Proof.Machine
end

