-- ==== Sys2Proof/Machine/Dispatch.lean ====
section
/-! DEFINITION. `exec`: one arm per constructor of `Instr`, each one direct call of its meaning. -/

namespace Sys2Proof.Machine

open Sys2Proof

def exec (i : Instr) (s : State) : Host.Outcome State Fault Refusal :=
  match i with
  | .scan now => Sys2Proof.Machine.execScan now s
  | .map v => Sys2Proof.Machine.execMap v s
  | .encJoy act p => Sys2Proof.Machine.execEncJoy act p s
  | .encKbd act => Sys2Proof.Machine.execEncKbd act s
  | .poll now => Sys2Proof.Machine.execPoll now s
  | .reconfig table => Sys2Proof.Machine.execReconfig table s
  | .jvsRxByte w => Sys2Proof.Machine.execJvsRxByte w s
  | .jvsDispatch => Sys2Proof.Machine.execJvsDispatch s
  | .jvsTxFrame dest data => Sys2Proof.Machine.execJvsTxFrame dest data s
  | .setSwitch player button pressed => Sys2Proof.Machine.execSetSwitch player button pressed s
  | .incCoin slot => Sys2Proof.Machine.execIncCoin slot s
  | .reset a1 => Sys2Proof.Machine.execReset a1 s
  | .assignAddr a1 => Sys2Proof.Machine.execAssignAddr a1 s
  | .ioIdent => Sys2Proof.Machine.execIoIdent s
  | .cmdRev => Sys2Proof.Machine.execCmdRev s
  | .jvsRev => Sys2Proof.Machine.execJvsRev s
  | .commVer => Sys2Proof.Machine.execCommVer s
  | .featChk => Sys2Proof.Machine.execFeatChk s
  | .readSwitches a1 a2 => Sys2Proof.Machine.execReadSwitches a1 a2 s
  | .readCoins a1 => Sys2Proof.Machine.execReadCoins a1 s
  | .retransmit => Sys2Proof.Machine.execRetransmit s
  | .unsupported x => Sys2Proof.Machine.execUnsupported x s
  | .sync => Sys2Proof.Machine.execSync s
  | .escape w => Sys2Proof.Machine.execEscape w s

end Sys2Proof.Machine
end

