-- ==== Sys2Proof/Machine/Sequencer.lean ====
section
/-! DEFINITION. What the step does in each place the sequencer can stand: at the iteration boundary
it takes the next act of the outside, in the receive loop it fetches the next wire symbol, in the
walk it fetches the next command (46_pipeline.md R260, R263; 45_jvs_commands.md R221). -/

namespace Sys2Proof.Machine

open Sys2Proof

/-! ## The walk -/

/-- One step of the walk: the command at `cmd_ptr`, or the end of the dispatch when `cmd_ptr` has
reached `rx_count` (45_jvs_commands.md R220, R221). -/
def walkStep (s : State) : Result :=
  if s.cmdPtr < s.rx.count then exec (commandAt s).toInstr s else .next (endDispatch s)

/-! ## The receive loop -/

/-- The wire symbol that begins with the byte `b` and how many bytes it takes, given the byte that
is already presented directly after it, if there is one. Where no pair can be read (an escape
already armed, or an `ESCAPE` with no ordinary byte directly after it) the byte is received on its
own (44_jvs_framing.md R191; log 14). -/
def wireSymbol (c : Config) (armed : Bool) (b : Byte) (after : Option Byte) : Instr × Nat :=
  if armed && (b != c.jvsSync) then (.jvsRxByte b, 1)
  else
    match decodeWire c (b :: after.toList) with
    | .ok (i, rest) => (i, (b :: after.toList).length - rest.length)
    | .error _ => (.jvsRxByte b, 1)

/-- After a wire symbol: a complete frame is dispatched (46_pipeline.md R263). -/
def afterSymbol (t : State) : State := if frameComplete t then startDispatch t else t

/-- One step of the receive loop on a wire symbol that begins with the byte `b` (46_pipeline.md
R263). -/
def symbolStep (b : Byte) (s : State) : Result :=
  let sym := wireSymbol s.cfg s.rx.escape b (s.ports.serial[1]?.join)
  andThen (exec sym.1 (s.withSerial (s.ports.serial.drop sym.2))) (fun t => .next (afterSymbol t))

/-! ## What the outside does -/

/-- The next act of the outside: the next one written, else the environment's free choice
(log 5). -/
def nextAct (s : State) : Act :=
  match s.script with
  | a :: _ => a
  | [] => Config.environment s.tick

/-- The act is taken. -/
def takeAct (s : State) : State := { s with script := s.script.tail, tick := s.tick + 1 }

/-- What the outside presents for one turn of the loop; serial results not yet received stay in
front (log 9). -/
def loadPorts (i : PollInput) (s : State) : State :=
  { s with
    ports :=
      { high := i.high, transport := i.transport, serial := s.ports.serial ++ i.serial } }

/-- The outside presents one more result of `SerialRecv` (20_memory.md R64, 93 U10). -/
def hear (result : Option Byte) (s : State) : State :=
  s.withSerial (s.ports.serial ++ [result])

/-- The configuration agent sets `reconfig_pending` with a complete table (10_state.md R48). While a
table is pending it may not change until it is taken: another table is refused, the same table
again changes nothing (70_reset_and_hazards.md R326, 93 U7; log 28). -/
def requestReconfig (table : Table) (s : State) : Result :=
  if tableOk s.cfg table then
    if s.reconfigPending = true ∧ table ≠ s.reconfigTable then .refused .pendingTableChanged
    else .next { s with reconfigPending := true, reconfigTable := table }
  else .refused .incompleteTable

/-- Power-on reset: every register takes its reset value; the parameters are not
touched, and what is outside the block stays as it is (70_reset_and_hazards.md R310, R311;
log 20). -/
def powerOn (s : State) : State :=
  { State.resetWith s.cfg with ports := s.ports, script := s.script, tick := s.tick, trace := s.trace }

/-- One turn of the loop in a USB mode is one whole iteration; in `Jvs` mode the iteration is
started here and goes on in the receive loop (46_pipeline.md R261 to R263; log 6). -/
def pollTurn (now : Nat) (s : State) : Result :=
  match s.cfg.mode with
  | .joystick => exec (.poll now) s
  | .keyboard => exec (.poll now) s
  | .jvs => .next (pollStart now s)

/-- One step of a receive loop that has used up what the line presented: the outside supplies the
next result, or requests a table for the next boundary, or resets the block. An act that needs the
boundary comes only after the read has timed out (44_jvs_framing.md R202, 46_pipeline.md R263,
70_reset_and_hazards.md R334; log 9). -/
def listenStep (s : State) : Result :=
  match nextAct s with
  | .serial result => .next (hear result (takeAct s))
  | .request table => requestReconfig table (takeAct s)
  | .powerOn => .next (powerOn (takeAct s))
  | .poll _ => .next (endIteration s)
  | .setSwitch _ _ _ => .next (endIteration s)
  | .incCoin _ => .next (endIteration s)

/-- One step of the receive loop: a time-out ends the iteration and leaves the decoder as it is, a
wire symbol is received (46_pipeline.md R263, 44_jvs_framing.md R202). -/
def receiveStep (s : State) : Result :=
  match s.ports.serial with
  | [] => listenStep s
  | none :: rest => .next (endIteration (s.withSerial rest))
  | some b :: _ => symbolStep b s

/-! ## The iteration boundary -/

/-- One step at the boundary: a pending reconfiguration first (46_pipeline.md R260, R270), else the
next act. -/
def boundaryStep (s : State) : Result :=
  if s.reconfigPending then exec (.reconfig s.reconfigTable) s
  else
    match nextAct s with
    | .poll i => pollTurn i.now (loadPorts i (takeAct s))
    | .setSwitch player button pressed => exec (.setSwitch player button pressed) (takeAct s)
    | .incCoin slot => exec (.incCoin slot) (takeAct s)
    | .request table => requestReconfig table (takeAct s)
    | .serial result => .next (hear result (takeAct s))
    | .powerOn => .next (powerOn (takeAct s))

/-! ## Placing an instruction where the step fetches it -/

/-- The instruction's bytes as the next command of a frame under dispatch. -/
def placeCommand (bytes : List Byte) (size : Nat) (s : State) : State :=
  { s with
    rx := { s.rx with buf := bytes ++ s.rx.buf.drop bytes.length, count := size }
    cmdPtr := 0
    txBuf := [s.cfg.statusSuccess]
    phase := .walk }

/-- The instruction's bytes as the next bytes on the serial line of an iteration that is
receiving. -/
def placeWire (bytes : List Byte) (s : State) : State :=
  (s.withSerial (bytes.map some)).withPhase .receive

/-- A table word's bytes placed where the step fetches its next instruction. -/
def placeWord (bytes : List Byte) (s : State) : State :=
  match decodeTable s.cfg bytes with
  | some (i, size) =>
    let padded := (bytes ++ [0x00, 0x00]).take size
    match i.space with
    | some .wire => placeWire padded s
    | some .data => placeCommand padded size s
    | none => placeCommand padded size s
  | none =>
    if bytes.head? = some s.cfg.jvsSync ∨ bytes.head? = some s.cfg.jvsEscape then placeWire bytes s
    else placeCommand bytes bytes.length s

end Sys2Proof.Machine
end

