-- ==== Sys2Proof/Machine/Step.lean ====
section
/-! DEFINITION. The step of the machine, and an instruction placed where the step fetches it. -/

namespace Sys2Proof.Machine

open Sys2Proof

/-- One step: a parameter record that is no configuration of this hardware is refused
(10_state.md R41); otherwise the sequencer goes on from where it stands. -/
def step (s : State) : Host.Outcome State Fault Refusal :=
  if s.cfg.wf then
    match s.phase with
    | .boundary => boundaryStep s
    | .receive => receiveStep s
    | .walk => walkStep s
  else .refused .badConfiguration

/-- The instruction of a table word stored where `step` fetches its next instruction: a command as
the only command of a frame under dispatch, a wire symbol as the next bytes on the line (log 13,
log 18). -/
def State.withFetchWord (s : State) (nbits w : Nat) : State := placeWord (tableBytes nbits w) s

end Sys2Proof.Machine
end

