-- ==== Sys2Proof/Safety.lean ====
section
/-! DEFINITION. What counts as a good state of the block, and what the outside sees of a run
(00_scope.md R8). -/

namespace Sys2Proof.Machine

open Sys2Proof

/-- `DB` has one entry per input, with a `TS_WIDTH`-bit timestamp (10_state.md R21, R22). -/
abbrev State.dbOk (s : State) : Prop :=
  s.db.length = s.cfg.inputs.length ∧ ∀ d ∈ s.db, d.lastChange < 2 ^ s.cfg.tsWidth

/-- `MAP` and the pending table are complete (10_state.md R27, R48). -/
abbrev State.tablesOk (s : State) : Prop :=
  tableOk s.cfg s.map = true ∧ tableOk s.cfg s.reconfigTable = true

/-- A last-sent report has the report's length (10_state.md R30, R31). -/
abbrev State.lastOk (s : State) : Prop :=
  s.joyLast.length = s.cfg.nPlayers
    ∧ (∀ l ∈ s.joyLast, l.valid = true → l.bytes.length = joyReportLength s.cfg)
    ∧ (s.kbdLast.valid = true → s.kbdLast.bytes.length = kbdReportLength s.cfg)

/-- The receive registers stay in their ranges, and nothing is armed outside a frame (10_state.md
R33 to R36, 44_jvs_framing.md R193). -/
abbrev State.rxOk (s : State) : Prop :=
  s.rx.buf.length = s.cfg.jvsMaxPayload ∧ s.rx.need ≤ s.cfg.jvsMaxPayload
    ∧ s.rx.count ≤ s.rx.need
    ∧ (s.rx.state = .getData → s.rx.count < s.rx.need)
    ∧ (s.rx.state = .waitSync → s.rx.escape = false)

/-- The packet under construction and the recorded one fit a frame (10_state.md R37, R46). -/
abbrev State.txOk (s : State) : Prop :=
  s.txBuf.length ≤ s.cfg.jvsMaxPayload
    ∧ (s.lastTx.valid = true →
      1 ≤ s.lastTx.bytes.length ∧ s.lastTx.bytes.length ≤ s.cfg.jvsMaxPayload)
    ∧ (s.phase = .walk → 1 ≤ s.txBuf.length ∧ s.cmdPtr ≤ s.rx.count)

/-- The protocol registers: a cleared id is 0x00, `SYS` is constant (10_state.md R39, R44). -/
abbrev State.protoOk (s : State) : Prop :=
  (s.proto = .uninitialized → s.deviceId = 0x00) ∧ s.sys = 0x00

/-- The switch bytes have their dimensions, the coin counters their range (10_state.md R43, R45). -/
abbrev State.inputsOk (s : State) : Prop :=
  s.sw.length = s.cfg.jvsPlayers ∧ (∀ row ∈ s.sw, row.length = s.cfg.switchBytes)
    ∧ s.coin.length = s.cfg.coinSlots ∧ ∀ n ∈ s.coin, n ≤ s.cfg.jvsCoinMax

/-- The invariant of the machine: the registers hold values of their widths and ranges, and only a
`Jvs` build is ever inside a receive loop or a walk. -/
abbrev State.Inv (s : State) : Prop :=
  s.cfg.wf = true ∧ s.dbOk ∧ s.tablesOk ∧ s.lastOk ∧ s.rxOk ∧ s.txOk ∧ s.protoOk ∧ s.inputsOk
    ∧ (s.phase ≠ .boundary → s.cfg.mode = .jvs)

/-- The reports handed to the transport, with the transport's answer, in order (00_scope.md R8). -/
def reportsOffered (es : List Event) : List (Channel × List Byte × Bool) :=
  es.filterMap fun e =>
    match e with
    | .transportSend ch bytes ok => some (ch, bytes, ok)
    | _ => none

/-- The frames put on the serial line, in order (20_memory.md R64). -/
def framesSent (es : List Event) : List (List Byte) :=
  es.filterMap fun e =>
    match e with
    | .serialSend wire => some wire
    | _ => none

/-- The conditions raised, in order (60_exceptions.md R280). -/
def conditionsRaised (es : List Event) : List Condition :=
  es.filterMap fun e =>
    match e with
    | .condition c => some c
    | _ => none

/-- A run of `n` steps that neither stops nor is refused ends in `t`. -/
def runsTo (n : Nat) (s t : State) : Prop := Host.Core.run Sys2Proof.core n s = .next t

/-! ## Offering a report -/

/-- The rule of 46_pipeline.md R264: a report `r` offered against a last-sent register `l`, under the
bit `configured` and with the transport's answer `ok`, leaves the register `n` and the events
`es`. -/
def OfferedAs (l : Last) (configured ok : Bool) (ch : Channel) (r : List Byte) (n : Last)
    (es : List Event) : Prop :=
  ((l.valid = true ∧ l.bytes = r) ∨ configured = false → n = l ∧ es = [])
  ∧ (¬ (l.valid = true ∧ l.bytes = r) → configured = true → ok = true →
      n = ⟨true, r⟩ ∧ es = [.transportSend ch r true])
  ∧ (¬ (l.valid = true ∧ l.bytes = r) → configured = true → ok = false →
      n = l ∧ es = [.transportSend ch r false])

/-! ## Receiving bytes -/

/-- Receiving a byte sequence, one byte after another (44_jvs_framing.md R203). -/
def receiveAll (c : Config) (bytes : List Byte) (r : Rx) : Rx :=
  bytes.foldl (fun a w => (rxByte c w a).1) r

/-- What each byte of a sequence returns (44_jvs_framing.md R190, R203). -/
def receiveResults (c : Config) : List Byte → Rx → List RxResult
  | [], _ => []
  | w :: rest, r => (rxByte c w r).2 :: receiveResults c rest (rxByte c w r).1

/-- The rows "other" of the transition table 44_jvs_framing.md R199: what the decoder of `s` does
with the transformed byte `b` inside a frame, and what it leaves in `t`. -/
def ReceivedAs (b : Byte) (s t : State) : Prop :=
  (s.rx.state = .getDestination →
    t = { s with
          rx := { s.rx with dest := b, sum := b, state := .getLength, escape := false }
          ret := .rx false })
  ∧ (s.rx.state = .getLength → b = 0 ∨ 253 < b.toNat →
    t = { s with
          rx := { s.rx with len := b, sum := s.rx.sum + b, state := .waitSync, escape := false }
          ret := .rx false })
  ∧ (s.rx.state = .getLength → b = 1 →
    t = { s with
          rx := { s.rx with
                  len := b, sum := s.rx.sum + b, need := 0, count := 0, state := .getChecksum
                  escape := false }
          ret := .rx false })
  ∧ (s.rx.state = .getLength → 2 ≤ b.toNat → b.toNat ≤ 253 →
    t = { s with
          rx := { s.rx with
                  len := b, sum := s.rx.sum + b, need := b.toNat - 1, count := 0
                  state := .getData, escape := false }
          ret := .rx false })
  ∧ (s.rx.state = .getData →
    t = { s with
          rx := { s.rx with
                  buf := s.rx.buf.set s.rx.count b, count := s.rx.count + 1
                  sum := s.rx.sum + b, escape := false
                  state := if s.rx.count + 1 = s.rx.need then .getChecksum else .getData }
          ret := .rx false })
  ∧ (s.rx.state = .getChecksum → b = s.rx.sum →
    t = { s with rx := { s.rx with state := .waitSync, escape := false }, ret := .rx true })
  ∧ (s.rx.state = .getChecksum → b ≠ s.rx.sum →
    t = { s with
          rx := { s.rx with state := .waitSync, escape := false }
          ret := .rx false
          trace := s.trace ++ [.condition .checksumError] })

/-! ## Scanning over time -/

/-- Scans one after another, each with its `now` and the inputs whose pin reads `HIGH` at it
(40_scan.md R124). -/
def afterScans : List (Nat × List Nat) → State → Result
  | [], s => .next s
  | e :: rest, s =>
    andThen (exec (.scan e.1) { s with ports := { s.ports with high := e.2 } }) (afterScans rest)

/-! ## Programs -/

/-- The commands of a frame one after another, each seeing the effects of those before it; after
the last one the packet is recorded and sent (45_jvs_commands.md R221, R224). -/
def runProgram : List Command → State → Result
  | [], s => .next (endDispatch s)
  | cmd :: rest, s =>
    andThen (exec cmd.toInstr s) fun t => if t.phase = .walk then runProgram rest t else .next t

end Sys2Proof.Machine
end

