-- ==== Sys2Proof/Certificates/Slice0/Obligations.lean ====
section
/-! DEFINITION. The statements about the block, for the provers. Where a clause rests on a decision
of the spec (92_eei_decisions.md D<n>) or on a choice of the model (log <n>), the docstring says
so. -/

open Sys2Proof Sys2Proof.Machine

/-! ## Encoding -/

/-- Decoding an encoded well-formed instruction gives it back, whatever bytes follow, under
every parameter record that is a configuration: commands from a frame's data, `SYNC` and
`ESCAPE` pairs from the wire (30_encoding.md R84 to R86, R102; the command bytes are parameters,
D22). -/
def Obligations.DecodeOfEncodeIsTheInstruction : Prop :=
  ∀ (c : Config) (i : Instr) (sp : Space) (rest : List Byte),
    c.wf = true → i.wf c = true → i.space = some sp →
      ∃ bytes, encode c i = some bytes ∧ decode c sp (bytes ++ rest) = .ok (i, rest)

/-- What a frame's data decodes to is a well-formed command, and its encoding is exactly the
bytes it took: every byte sequence has one reading (30_encoding.md R85, R101). -/
def Obligations.EncodeOfDecodedCommandIsItsBytes : Prop :=
  ∀ (c : Config) (bytes rest : List Byte) (i : Instr),
    decode c .data bytes = .ok (i, rest) →
      i.wf c = true ∧ ∃ used, encode c i = some used ∧ bytes = used ++ rest

/-- An assembled program, the concatenation of its commands' bytes, reads back as the program
(30_encoding.md R105). -/
def Obligations.AssembledProgramReadsBack : Prop :=
  ∀ (c : Config) (program : List Command) (n : Nat),
    c.wf = true → (∀ cmd ∈ program, cmd.toInstr.wf c = true) → program.length ≤ n →
      disassemble c n (assemble c program) = program

/-- Words written out from the encodings of 30_encoding.md R85 and R102 decode to the instructions
they stand for, under the default parameters (D22, log 13). -/
def Obligations.TableWordsDecode : Prop :=
  decodeTableWord 16 0xF0D9 = some (.reset 0xD9)
  ∧ decodeTableWord 16 0xF101 = some (.assignAddr 0x01)
  ∧ decodeTableWord 8 0x10 = some .ioIdent
  ∧ decodeTableWord 24 0x200102 = some (.readSwitches 0x01 0x02)
  ∧ decodeTableWord 16 0x2105 = some (.readCoins 0x05)
  ∧ decodeTableWord 8 0x2F = some .retransmit
  ∧ decodeTableWord 8 0x32 = some (.unsupported 0x32)
  ∧ decodeTableWord 8 0xE0 = some .sync
  ∧ decodeTableWord 16 0xD0DF = some (.escape 0xDF)

/-! ## Parameters -/

/-- The six rows of the parameter table whose value the source itself fixes have that value in every
configuration, and a record with another value is none: `step` refuses it (00_scope.md R6,
10_state.md R41; log 3). -/
def Obligations.ConfigurationsHaveTheFixedValues : Prop :=
  ∀ s : State,
    ¬ (s.cfg.maxPins = 17 ∧ s.cfg.buttonIndexMax = 29 ∧ s.cfg.jvsSync = 0xE0
      ∧ s.cfg.jvsEscape = 0xD0 ∧ s.cfg.jvsMaxPayload = 252 ∧ s.cfg.jvsCoinMax = 16383) →
    s.cfg.wf = false ∧ step s = .refused .badConfiguration

/-! ## The invariant -/

/-- The machine right after reset meets the invariant, for every configuration (10_state.md R50; the
reset values are the spec's decisions D4, D20, D33, D45, D46, D52, and log 4, log 27). -/
def Obligations.ResetMeetsInvariant : Prop :=
  ∀ c : Config, c.wf = true → (State.resetWith c).Inv

/-- Every step that answers a next state keeps the invariant: registers in their widths and ranges,
complete tables, reports and packets of legal length, `SYS` constant, no receive loop or walk
outside `Jvs` mode (10_state.md section 2 to 6). -/
def Obligations.StepKeepsInvariant : Prop :=
  ∀ s t : State, s.Inv → step s = .next t → t.Inv

/-- From a state that meets the invariant the step goes on to a next state, unless the outside does
what the spec gives it no way to do: reach for a port of another mode, request an incomplete table,
or change a table that is pending (60_exceptions.md R285, R292, 70_reset_and_hazards.md R326; log
11, log 12, log 28). -/
def Obligations.StepGoesOnFromInvariant : Prop :=
  ∀ s : State, s.Inv →
    (s.phase = .boundary ∧ s.reconfigPending = false ∨ s.phase = .receive ∧ s.ports.serial = [] →
      match nextAct s with
      | .poll _ => True
      | .setSwitch _ _ _ => s.cfg.mode = .jvs
      | .incCoin _ => s.cfg.mode = .jvs
      | .request table => tableOk s.cfg table = true
          ∧ (s.reconfigPending = true → table = s.reconfigTable)
      | .serial _ => True
      | .powerOn => True) →
    ∃ t, step s = .next t

/-- The registers the spec gives a reset value hold it, whatever the parameters: 10_state.md
R50. Each value is the spec's decision (D4, D20, D33, D45, D46, D52, D31). -/
def Obligations.ResetValues : Prop :=
  ∀ c : Config,
    (∀ d ∈ (State.resetWith c).db, d = ⟨false, 0⟩)
    ∧ (State.resetWith c).db.length = c.inputs.length
    ∧ (∀ row ∈ (State.resetWith c).map, ∀ f ∈ row, f = .disabled)
    ∧ (State.resetWith c).reconfigPending = false
    ∧ (∀ l ∈ (State.resetWith c).joyLast, l.valid = false)
    ∧ (State.resetWith c).kbdLast.valid = false
    ∧ (State.resetWith c).rx.state = .waitSync ∧ (State.resetWith c).rx.escape = false
    ∧ (State.resetWith c).rx.dest = 0 ∧ (State.resetWith c).rx.len = 0
    ∧ (State.resetWith c).rx.need = 0 ∧ (State.resetWith c).rx.count = 0
    ∧ (State.resetWith c).rx.sum = 0
    ∧ (State.resetWith c).proto = .uninitialized ∧ (State.resetWith c).deviceId = 0
    ∧ (State.resetWith c).sense = false
    ∧ (∀ row ∈ (State.resetWith c).sw, ∀ b ∈ row, b = 0) ∧ (State.resetWith c).sys = 0
    ∧ (∀ n ∈ (State.resetWith c).coin, n = 0) ∧ (State.resetWith c).lastTx.valid = false
    ∧ (State.resetWith c).cfg = c

/-! ## The step -/

/-- In the walk, where the bytes at `cmd_ptr` decode to a well-formed instruction the step is that
instruction's meaning, which itself moves `cmd_ptr` past it (45_jvs_commands.md R220, R221). -/
def Obligations.StepRunsTheDecodedCommand : Prop :=
  ∀ (s : State) (i : Instr) (rest : List Byte),
    s.cfg.wf = true → s.phase = .walk → s.cmdPtr < s.rx.count →
    decode s.cfg .data ((s.rx.buf.take s.rx.count).drop s.cmdPtr) = .ok (i, rest) →
    i.wf s.cfg = true → step s = exec i s

/-- A supported command byte whose arguments lie at or beyond `rx_count` runs as an unsupported
command (45_jvs_commands.md R222, the spec's decision D34). -/
def Obligations.StepTakesIncompleteCommandAsUnsupported : Prop :=
  ∀ (s : State) (op : Byte) (args : List Byte) (size : Nat),
    s.cfg.wf = true → s.phase = .walk → s.cmdPtr < s.rx.count →
    (s.rx.buf.take s.rx.count).drop s.cmdPtr = op :: args → args.length + 1 < size →
    (size = 2 ∧ (op = s.cfg.ops.reset ∨ op = s.cfg.ops.assignAddr ∨ op = s.cfg.ops.readCoins)
      ∨ size = 3 ∧ op = s.cfg.ops.readSwitches) →
    step s = exec (.unsupported op) s

/-- In the receive loop the step is the meaning of the wire symbol the line presents, on the
state that has consumed its bytes: `SYNC`; an `ESCAPE` with the byte after it; or `JVS_RX_BYTE`
of one byte, where the byte is ordinary, where an escape is already armed, and where no ordinary
byte is presented directly after an `ESCAPE`. A frame it completes starts a dispatch: a walk if
it is addressed (broadcast, or the assigned id while `Addressed`), the end of the iteration if
not (46_pipeline.md R263, 45_jvs_commands.md R220, R225; log 6, log 14). -/
def Obligations.StepRunsTheReceivedSymbol : Prop :=
  ∀ (s : State) (i : Instr) (b : Byte) (used : Nat) (more : List (Option Byte)),
    s.cfg.wf = true → s.phase = .receive → s.ports.serial = some b :: more →
    ((b = 0xE0 ∧ i = .sync ∧ used = 1)
      ∨ (∃ w tl, s.rx.escape = false ∧ b = 0xD0 ∧ more = some w :: tl ∧ w ≠ 0xE0
          ∧ i = .escape w ∧ used = 2)
      ∨ (s.rx.escape = false ∧ b = 0xD0
          ∧ (more = [] ∨ ∃ tl, more = none :: tl ∨ more = some 0xE0 :: tl)
          ∧ i = .jvsRxByte b ∧ used = 1)
      ∨ (s.rx.escape = true ∧ b = 0xD0 ∧ i = .jvsRxByte b ∧ used = 1)
      ∨ (b ≠ 0xE0 ∧ b ≠ 0xD0 ∧ i = .jvsRxByte b ∧ used = 1)) →
    ∀ (t : State) (addressed : Prop),
      exec i { s with ports := { s.ports with serial := s.ports.serial.drop used } } = .next t →
      (addressed ↔ t.rx.dest = t.cfg.broadcastAddr
        ∨ (t.proto = .addressed ∧ t.rx.dest = t.deviceId)) →
      (t.ret ≠ .rx true → step s = .next t)
      ∧ (t.ret = .rx true → addressed →
          step s = .next { t with
            txBuf := [t.cfg.statusSuccess], cmdPtr := 0, phase := .walk })
      ∧ (t.ret = .rx true → ¬ addressed →
          step s = .next { t with phase := .boundary, ret := .unit })

/-- A read that times out ends the iteration and leaves the decoder's registers as they are
(44_jvs_framing.md R202, the spec's decision D39; 46_pipeline.md R263). -/
def Obligations.TimeoutEndsTheIterationOnly : Prop :=
  ∀ (s : State) (rest : List (Option Byte)),
    s.cfg.wf = true → s.phase = .receive → s.ports.serial = none :: rest →
    step s = .next { s with
      ports := { s.ports with serial := rest }, phase := .boundary, ret := .unit }

/-- Where the receive loop has used up what the line presented, the outside decides what comes
next: one more result of `SerialRecv`, a requested table, which waits for the boundary, or a
reset of the block. A request of an incomplete table, and one that would change a table that is
pending already, is refused. An act that needs the iteration boundary finds it only through a
time-out, which changes no register of the spec (20_memory.md R64, 70_reset_and_hazards.md R310,
R326, R334, 93 U7; log 5, log 9, log 12, log 20, log 28). -/
def Obligations.ListeningWaitsForTheOutside : Prop :=
  ∀ s : State, s.cfg.wf = true → s.phase = .receive → s.ports.serial = [] →
    (∀ r, nextAct s = .serial r → step s = .next { s with
        script := s.script.tail, tick := s.tick + 1, ports := { s.ports with serial := [r] } })
    ∧ (∀ table, nextAct s = .request table →
        (tableOk s.cfg table = true → (s.reconfigPending = true → table = s.reconfigTable) →
          step s = .next { s with
            script := s.script.tail, tick := s.tick + 1, reconfigPending := true
            reconfigTable := table })
        ∧ (tableOk s.cfg table = true → s.reconfigPending = true → table ≠ s.reconfigTable →
          step s = .refused .pendingTableChanged)
        ∧ (tableOk s.cfg table = false → step s = .refused .incompleteTable))
    ∧ (nextAct s = .powerOn → step s = .next { State.resetWith s.cfg with
        ports := s.ports, script := s.script.tail, tick := s.tick + 1, trace := s.trace })
    ∧ ((∃ i, nextAct s = .poll i) ∨ (∃ p b x, nextAct s = .setSwitch p b x)
        ∨ (∃ c, nextAct s = .incCoin c) →
      step s = .next { s with phase := .boundary, ret := .unit })

/-- Starvation of the scanner: however many bytes the line goes on delivering, as long as none
of them completes a frame and no read times out, the iteration does not end. After two steps for
each byte (it is presented, it is received) the block is still receiving, its decoder has
received exactly those bytes, nothing was sent, and neither `DB` nor `SW` nor any other register
has changed (70_reset_and_hazards.md R329; the loop's shape is the spec's decision D44). -/
def Obligations.StarvedIterationGoesOn : Prop :=
  ∀ (s : State) (bytes : List Byte) (rest : List Act),
    s.cfg.wf = true → s.cfg.mode = .jvs → s.phase = .receive → s.ports.serial = [] →
    s.script = bytes.map (fun b => Act.serial (some b)) ++ rest →
    RxResult.complete ∉ receiveResults s.cfg bytes s.rx →
    ∃ (t : State) (es : List Event),
      runsTo (2 * bytes.length) s t
      ∧ t = { s with
              rx := receiveAll s.cfg bytes s.rx
              script := rest
              tick := s.tick + bytes.length
              ret := if bytes = [] then s.ret else .rx false
              trace := s.trace ++ es }
      ∧ framesSent es = [] ∧ reportsOffered es = []

/-- When `cmd_ptr` has reached `rx_count` the packet is recorded in `last_tx`, one frame goes to the
bus master, and the iteration ends (45_jvs_commands.md R224, decision D41). -/
def Obligations.StepEndsTheWalk : Prop :=
  ∀ s : State, s.cfg.wf = true → s.phase = .walk → s.rx.count ≤ s.cmdPtr →
    step s = .next { s with
      lastTx := ⟨true, s.txBuf⟩
      trace := s.trace ++ [.serialSend (wireFrame s.cfg s.cfg.masterAddr s.txBuf)]
      phase := .boundary
      ret := .unit }

/-- At the boundary a pending table is taken before anything else; then the outside's next act runs
its operation, whether it is written in the script or a free choice (46_pipeline.md R260, R270;
45_jvs_commands.md R247; 70_reset_and_hazards.md R334; log 5, log 15). -/
def Obligations.StepAtTheBoundary : Prop :=
  ∀ s : State, s.cfg.wf = true → s.phase = .boundary →
    (∀ a rest, s.script = a :: rest → nextAct s = a)
    ∧ (s.script = [] → nextAct s = Config.environment s.tick)
    ∧ (s.reconfigPending = true → step s = exec (.reconfig s.reconfigTable) s)
    ∧ (s.reconfigPending = false →
        (∀ player button pressed, nextAct s = .setSwitch player button pressed →
          step s = exec (.setSwitch player button pressed)
            { s with script := s.script.tail, tick := s.tick + 1 })
        ∧ (∀ slot, nextAct s = .incCoin slot →
          step s = exec (.incCoin slot) { s with script := s.script.tail, tick := s.tick + 1 })
        ∧ (∀ table, nextAct s = .request table → tableOk s.cfg table = true →
          step s = .next { s with
            script := s.script.tail, tick := s.tick + 1, reconfigPending := true
            reconfigTable := table })
        ∧ (∀ r, nextAct s = .serial r →
          step s = .next { s with
            script := s.script.tail, tick := s.tick + 1
            ports := { s.ports with serial := s.ports.serial ++ [r] } })
        ∧ (∀ i, nextAct s = .poll i → s.cfg.mode ≠ .jvs →
          step s = exec (.poll i.now) { s with
            script := s.script.tail, tick := s.tick + 1
            ports := ⟨i.high, i.transport, s.ports.serial ++ i.serial⟩ })
        ∧ (∀ i, nextAct s = .poll i → s.cfg.mode = .jvs →
          step s = .next (pollStart i.now { s with
            script := s.script.tail, tick := s.tick + 1
            ports := ⟨i.high, i.transport, s.ports.serial ++ i.serial⟩ })))

/-- A pending table is stable from the moment the flag is set until it is taken, and it is taken only
at the iteration boundary: as long as the flag stays set neither the table nor `MAP` changes; a step
that clears the flag either stood at the boundary and made the table the new `MAP`, or took a
power-on reset of a listening block (70_reset_and_hazards.md R326, 10_state.md R48; that a request
which would change it is refused is 93 U7 and log 28, the power-on while listening log 20). -/
def Obligations.PendingTableIsStableUntilTheBoundary : Prop :=
  ∀ s t : State, s.reconfigPending = true → step s = .next t →
    (t.reconfigPending = true ∧ t.reconfigTable = s.reconfigTable ∧ t.map = s.map
        ∧ s.phase ≠ .boundary)
    ∨ (t.reconfigPending = false ∧ s.phase = .boundary ∧ t.map = s.reconfigTable ∧ t.db = s.db)
    ∨ (t.reconfigPending = false ∧ s.phase = .receive ∧ s.ports.serial = []
        ∧ nextAct s = .powerOn ∧ t.map = disabledTable s.cfg)

/-- A parameter record that is no configuration of this hardware is refused, and only that is
refused so (10_state.md R41, 93 U1). -/
def Obligations.StepRefusesOtherConfigurations : Prop :=
  ∀ s : State, step s = .refused .badConfiguration ↔ s.cfg.wf = false

/-- Power-on reset at an iteration boundary: every register takes its reset value whatever it held,
the parameters stay (70_reset_and_hazards.md R310, R311; that the outside's side stays is log
20). -/
def Obligations.PowerOnResetsEveryRegister : Prop :=
  ∀ s : State,
    s.cfg.wf = true → s.phase = .boundary → s.reconfigPending = false → nextAct s = .powerOn →
    step s = .next { State.resetWith s.cfg with
      ports := s.ports, script := s.script.tail, tick := s.tick + 1, trace := s.trace }

/-! ## Scan, map -/

/-- `SCAN`: every input on its own; a sample equal to `stable` sets the timer, a differing one
commits once the modular elapsed time reaches `DEBOUNCE_TIME_MS` and holds before that; each pin
is read once, in increasing index; nothing else changes (40_scan.md R121, whose two timer
assignments are the spec's decision D3; R122, R123). -/
def Obligations.ScanDebouncesEveryInput : Prop :=
  ∀ (now : Nat) (s : State),
    now < 2 ^ s.cfg.tsWidth → s.db.length = s.cfg.inputs.length →
    ∃ t, exec (.scan now) s = .next t
      ∧ t = { s with
              db := t.db
              trace := s.trace ++ s.cfg.inputs.zipIdx.map
                (fun e => Event.gpioRead e.1.pin (if e.2 ∈ s.ports.high then .high else .low))
              ret := .vector (t.db.map (fun d => d.stable)) }
      ∧ t.db.length = s.cfg.inputs.length
      ∧ ∀ (i : Nat) (inp : Input) (d : Debounce) (pressed : Bool),
          s.cfg.inputs[i]? = some inp → s.db[i]? = some d →
          (pressed = true ↔ (i ∈ s.ports.high ↔ inp.activeLow = false)) →
          (pressed = d.stable → t.db[i]? = some ⟨d.stable, now⟩)
          ∧ (pressed ≠ d.stable →
              (s.cfg.debounceMs : Int)
                ≤ ((now : Int) - d.lastChange) % ((2 ^ s.cfg.tsWidth : Nat) : Int) →
              t.db[i]? = some ⟨pressed, now⟩)
          ∧ (pressed ≠ d.stable →
              ((now : Int) - d.lastChange) % ((2 ^ s.cfg.tsWidth : Nat) : Int)
                < (s.cfg.debounceMs : Int) →
              t.db[i]? = some d)

/-- The debounce property over any sequence of scans: counted from the last matching sample
`t0`, `stable` does not change while every later sample differs and is less than
`DEBOUNCE_TIME_MS` after `t0`; the first differing sample at or past the threshold commits and
sets the timer to its `now`; and `stable` keeps the new value while the raw value stays
(40_scan.md R124; that the time counts from the last matching sample is the spec's own reading,
90_conflicts.md C7, and that a commit sets the timer its decision D3, R121(b); log 24). -/
def Obligations.StableFlipsExactlyAtTheThreshold : Prop :=
  ∀ (s : State) (i : Nat) (inp : Input) (level : Bool) (t0 now : Nat) (high : List Nat)
    (before after : List (Nat × List Nat)),
    s.dbOk → s.cfg.inputs[i]? = some inp → s.db[i]? = some ⟨level, t0⟩ →
    (∀ e ∈ before, e.1 < 2 ^ s.cfg.tsWidth ∧ rawPressed inp e.2 i = !level
      ∧ elapsed s.cfg.tsWidth e.1 t0 < s.cfg.debounceMs) →
    now < 2 ^ s.cfg.tsWidth → rawPressed inp high i = !level →
    s.cfg.debounceMs ≤ elapsed s.cfg.tsWidth now t0 →
    (∀ e ∈ after, e.1 < 2 ^ s.cfg.tsWidth ∧ rawPressed inp e.2 i = !level) →
    ∃ t u v, afterScans before s = .next t ∧ t.db[i]? = some ⟨level, t0⟩
      ∧ afterScans [(now, high)] t = .next u ∧ u.db[i]? = some ⟨!level, now⟩
      ∧ afterScans after u = .next v ∧ (v.db[i]?).map (fun d => d.stable) = some (!level)

/-- `MAP`: the action set holds exactly what the pressed inputs are mapped to by the table's row of
their player and entry of their slot, axes resolved each on its own (left and up are `Min`: the
spec's decision D8), key codes in increasing input index with duplicates; no register changes
(41_map.md R140 to R142, 10_state.md R27; D7, D14). -/
def Obligations.MapResolvesThePressedInputs : Prop :=
  ∀ (v : List Bool) (s : State),
    s.cfg.wf = true → s.tablesOk → v.length = s.cfg.inputs.length →
    ∃ act, exec (.map v) s = .next { s with ret := .actions act }
      ∧ act.players.length = s.cfg.nPlayers
      ∧ act.keyseq = (s.cfg.inputs.zip v).filterMap (fun e =>
          if e.2 then
            match (s.map[e.1.player - 1]?).bind (fun row => row[e.1.slot]?) with
            | some (.keyCode k) => some k
            | _ => none
          else none)
      ∧ ∀ (p : Nat) (a : PlayerActions) (maps : Func → Prop),
          1 ≤ p → act.players[p - 1]? = some a →
          (∀ f, maps f ↔ ∃ e ∈ s.cfg.inputs.zip v, ∃ row : List Func,
            e.2 = true ∧ e.1.player = p ∧ s.map[p - 1]? = some row ∧ row[e.1.slot]? = some f) →
          (a.up = true ↔ maps .axisUp) ∧ (a.down = true ↔ maps .axisDown)
          ∧ (a.left = true ↔ maps .axisLeft) ∧ (a.right = true ↔ maps .axisRight)
          ∧ (∀ b, b ≤ 29 → (a.buttons.getLsbD b = true ↔ maps (.button b)))
          ∧ (∀ k : Byte, a.keys.getLsbD k.toNat = true ↔ maps (.keyCode k))
          ∧ (a.x = .min ↔ maps .axisLeft ∧ ¬ maps .axisRight)
          ∧ (a.x = .max ↔ maps .axisRight ∧ ¬ maps .axisLeft)
          ∧ (a.y = .min ↔ maps .axisUp ∧ ¬ maps .axisDown)
          ∧ (a.y = .max ↔ maps .axisDown ∧ ¬ maps .axisUp)

/-! ## The report encoders -/

/-- `ENC_JOY` completes in `Joystick` mode for every player: report id if any, the two axis
bytes, and the 16 button bits low byte first, a bit set only below `JOY_BUTTON_COUNT`; no
register changes (42_joystick.md R156, R157; that the low byte of the buttons field comes first
is the spec's decision D11, 20_memory.md R65, log 24). -/
def Obligations.JoystickReportLayout : Prop :=
  ∀ (act : ActionSet) (p : Nat) (a : PlayerActions) (s : State),
    s.cfg.mode = .joystick → 1 ≤ p → p ≤ s.cfg.nPlayers → act.players[p - 1]? = some a →
    ∃ (id x y lo hi : Byte) (report : List Byte),
      exec (.encJoy act p) s = .next { s with ret := .report report }
      ∧ report = (if s.cfg.joyHasReportId then [id] else []) ++ [x, y, lo, hi]
      ∧ id = (if p = 1 then s.cfg.joyReportId1 else s.cfg.joyReportId2)
      ∧ x = (match a.x with
          | .min => s.cfg.joyAxisMin
          | .center => s.cfg.joyAxisCenter
          | .max => s.cfg.joyAxisMax)
      ∧ y = (match a.y with
          | .min => s.cfg.joyAxisMin
          | .center => s.cfg.joyAxisCenter
          | .max => s.cfg.joyAxisMax)
      ∧ ∀ b, b < 8 →
          (lo.getLsbD b = (a.buttons.getLsbD b && decide (b < s.cfg.joyButtonCount)))
          ∧ (hi.getLsbD b = (a.buttons.getLsbD (b + 8) && decide (b + 8 < s.cfg.joyButtonCount)))

/-- `ENC_KBD` under the slot policy: modifiers, the reserved 0x00, and the slots, which hold the
first `KBD_SLOTS` distinct key codes of `keyseq` that are neither zero nor modifiers, in order,
then 0x00 (43_keyboard.md R170 to R174, R177; order D14, key code zero D15, modifiers D16,
reserved byte D19). -/
def Obligations.SlotPolicyReport : Prop :=
  ∀ (act : ActionSet) (n : Nat) (s : State),
    s.cfg.mode = .keyboard → s.cfg.kbdPolicy = .slot n →
    ∃ (mods : Byte) (distinct keys report : List Byte),
      exec (.encKbd act) s = .next { s with ret := .report report }
      ∧ report = (if s.cfg.kbdHasReportId then [s.cfg.kbdReportId] else []) ++ [mods, 0x00] ++ keys
      ∧ (∀ j, j < 8 → (mods.getLsbD j = true ↔
          s.cfg.kbdModifierKeys = true ∧ ∃ a ∈ act.players, a.keys.getLsbD (0xE0 + j) = true))
      ∧ distinct = (act.keyseq.filter (fun k =>
          !(k == 0x00)
            && !(s.cfg.kbdModifierKeys && decide (0xE0 ≤ k.toNat ∧ k.toNat ≤ 0xE7)))).eraseDups
      ∧ keys = distinct.take n ++ List.replicate (n - distinct.length) 0x00

/-- Under the slot policy a report of legal length never holds a key code twice and never more than
`KBD_SLOTS` key codes: "additional simultaneous presses are silently dropped" and "Duplicate key
codes must not create duplicate slot entries" (43_keyboard.md R173, R174). -/
def Obligations.SlotsHoldNoDuplicates : Prop :=
  ∀ (c : Config) (n : Nat) (act : ActionSet),
    (slotKeys c n act).length = n
    ∧ ((slotKeys c n act).filter (fun k => k != 0x00)).Nodup
    ∧ (∀ k ∈ slotKeys c n act, k ≠ 0x00 → k ∈ act.keyseq)
    ∧ (∀ k ∈ act.keyseq, k ≠ 0x00 → isModifier c k = false → k ∉ slotKeys c n act →
        ∀ j ∈ slotKeys c n act, j ≠ 0x00)

/-- `ENC_KBD` under the bitmap policy: bit `k mod 8` of byte `k div 8` is set exactly for the
pressed key codes below `KBD_BITMAP_BITS` that are neither zero nor modifiers (43_keyboard.md
R170, R175 to R177; bit order D17, key code zero D15, modifiers D16). -/
def Obligations.BitmapPolicyReport : Prop :=
  ∀ (act : ActionSet) (bits : Nat) (s : State),
    s.cfg.wf = true → s.cfg.mode = .keyboard → s.cfg.kbdPolicy = .bitmap bits →
    ∃ (mods : Byte) (keys report : List Byte),
      exec (.encKbd act) s = .next { s with ret := .report report }
      ∧ report = (if s.cfg.kbdHasReportId then [s.cfg.kbdReportId] else []) ++ [mods, 0x00] ++ keys
      ∧ keys.length = bits / 8
      ∧ (∀ j, j < 8 → (mods.getLsbD j = true ↔
          s.cfg.kbdModifierKeys = true ∧ ∃ a ∈ act.players, a.keys.getLsbD (0xE0 + j) = true))
      ∧ ∀ k, k < bits → ∃ b, keys[k / 8]? = some b
          ∧ (b.getLsbD (k % 8) = true ↔
              (∃ a ∈ act.players, a.keys.getLsbD k = true) ∧ k ≠ 0
              ∧ ¬ (s.cfg.kbdModifierKeys = true ∧ 0xE0 ≤ k ∧ k ≤ 0xE7))

/-! ## The poll iteration in the USB modes -/

/-- `POLL` in `Joystick` mode is `SCAN`, `MAP`, and `ENC_JOY` for each player in order, each
report offered against its own last-sent register under the one bit `configured`: nothing
happens if the report equals the last one handed over or the gate is closed; otherwise it is
handed to the transport, and recorded only if the transport takes it (46_pipeline.md R261, R264,
10_state.md R49; player 1 first is the spec's decision D51; D20, D21). -/
def Obligations.JoystickPollIsScanMapEncode : Prop :=
  ∀ (now : Nat) (s : State), s.Inv → s.cfg.mode = .joystick →
    ∃ (s1 : State) (v : List Bool) (act : ActionSet) (r1 r2 : List Byte) (l1 l2 n1 n2 : Last)
      (e1 e2 : List Event),
      exec (.scan now) s = .next s1 ∧ s1.ret = .vector v
      ∧ exec (.map v) s1 = .next { s1 with ret := .actions act }
      ∧ exec (.encJoy act 1) s1 = .next { s1 with ret := .report r1 }
      ∧ exec (.encJoy act 2) s1 = .next { s1 with ret := .report r2 }
      ∧ s.joyLast = [l1, l2]
      ∧ exec (.poll now) s = .next { s1 with
          joyLast := [n1, n2], trace := s1.trace ++ e1 ++ e2, phase := .boundary, ret := .unit }
      ∧ OfferedAs l1 s.ports.transport.configured s.ports.transport.joy1Ok (.joy 1) r1 n1 e1
      ∧ OfferedAs l2 s.ports.transport.configured s.ports.transport.joy2Ok (.joy 2) r2 n2 e2

/-- `POLL` in `Keyboard` mode is `SCAN`, `MAP`, `ENC_KBD` and one offer of the report: nothing
happens if it equals the last one handed over or the gate is closed; otherwise it is handed to
the transport, and recorded only if the transport takes it (46_pipeline.md R262, R264; D20,
D21). -/
def Obligations.KeyboardPollIsScanMapEncode : Prop :=
  ∀ (now : Nat) (s : State), s.Inv → s.cfg.mode = .keyboard →
    ∃ (s1 : State) (v : List Bool) (act : ActionSet) (r : List Byte) (n : Last) (e : List Event),
      exec (.scan now) s = .next s1 ∧ s1.ret = .vector v
      ∧ exec (.map v) s1 = .next { s1 with ret := .actions act }
      ∧ exec (.encKbd act) s1 = .next { s1 with ret := .report r }
      ∧ exec (.poll now) s = .next { s1 with
          kbdLast := n, trace := s1.trace ++ e, phase := .boundary, ret := .unit }
      ∧ OfferedAs s.kbdLast s.ports.transport.configured s.ports.transport.kbdOk .kbd r n e

/-- "two consecutive identical `ActionSet`s produce at most one transport `send` call (the
first)": if two polls in a row compute the same action set and the first hands a channel's
report over, the second offers nothing on that channel, whatever the outside presents
(46_pipeline.md R265). -/
def Obligations.IdenticalActionSetsSendOnce : Prop :=
  ∀ (now1 now2 : Nat) (s : State) (pt : Ports), s.Inv → s.cfg.mode ≠ .jvs →
    ∃ (t u : State) (first second : List Event),
      exec (.poll now1) s = .next t ∧ t.trace = s.trace ++ first
      ∧ exec (.poll now2) { t with ports := pt } = .next u ∧ u.trace = t.trace ++ second
      ∧ (mapActions s.cfg s.map (t.db.map (fun d => d.stable))
            = mapActions s.cfg s.map (u.db.map (fun d => d.stable)) →
          ∀ ch r, (ch, r, true) ∈ reportsOffered first →
            ∀ r' ok, (ch, r', ok) ∉ reportsOffered second)

/-- `RECONFIG`: the whole of `MAP` at once and the flag cleared, nothing else; a table that is
not `N_PLAYERS` rows of 17 values of the type `Function` is no operand (46_pipeline.md R270,
10_state.md R27, R28; the spec's decision D45; the refusal is log 12). -/
def Obligations.ReconfigReplacesTheWholeTable : Prop :=
  ∀ (table : Table) (s : State) (complete : Prop), s.cfg.wf = true →
    (complete ↔ table.length = s.cfg.nPlayers
      ∧ ∀ row ∈ table, row.length = 17 ∧ ∀ b, Func.button b ∈ row → b ≤ 29) →
    (complete →
      exec (.reconfig table) s = .next { s with map := table, reconfigPending := false })
    ∧ (¬ complete → exec (.reconfig table) s = .refused .incompleteTable)

/-- The operations that cannot fail: on operands of their types, in a build that has them, they
answer a next state (60_exceptions.md R285). -/
def Obligations.OperationsThatCannotFail : Prop :=
  ∀ (i : Instr) (s : State), i.wf s.cfg = true →
    (match i with
      | .scan _ => True
      | .map _ => True
      | .encJoy _ _ => s.cfg.mode = .joystick
      | .encKbd _ => s.cfg.mode = .keyboard
      | .jvsTxFrame _ _ => s.cfg.mode = .jvs
      | .setSwitch _ _ _ => s.cfg.mode = .jvs
      | .incCoin _ => s.cfg.mode = .jvs
      | .reconfig _ => True
      | _ => False) →
    ∃ t, exec i s = .next t

/-! ## JVS framing -/

/-- `JVS_RX_BYTE`, the whole transition table: `SYNC` restarts reception in every state,
everything else is discarded in `WaitSync`, an unescaped `ESCAPE` arms the transform, and any
other byte is the state's own, transformed if the transform is armed (44_jvs_framing.md R191,
R199; D36 to D38). -/
def Obligations.ReceiveByteTransitions : Prop :=
  ∀ (w : Byte) (s : State), s.cfg.wf = true → s.cfg.mode = .jvs →
    ∃ t, exec (.jvsRxByte w) s = .next t
      ∧ (w = 0xE0 → t = { s with
          rx := { s.rx with state := .getDestination, escape := false, sum := 0, count := 0 }
          ret := .rx false })
      ∧ (w ≠ 0xE0 → s.rx.state = .waitSync → t = { s with ret := .rx false })
      ∧ (w = 0xD0 → s.rx.state ≠ .waitSync → s.rx.escape = false →
          t = { s with rx := { s.rx with escape := true }, ret := .rx false })
      ∧ (w ≠ 0xE0 → s.rx.state ≠ .waitSync → s.rx.escape = true → ReceivedAs (w + 1) s t)
      ∧ (w ≠ 0xE0 → w ≠ 0xD0 → s.rx.state ≠ .waitSync → s.rx.escape = false → ReceivedAs w s t)

/-- "`SYNC` unconditionally resets to `GetDestination`": in every state of the decoder,
cancelling an armed transform, restarting sum and count, and raising nothing; the row `SYNC` and
`JVS_RX_BYTE` of the byte `JVS_SYNC` are the same (44_jvs_framing.md R192, which marks the
clearing of `rx_escape` as derived; the row as an operation is the model's choice, log 14). -/
def Obligations.SyncRestartsReception : Prop :=
  ∀ (s t : State), s.cfg.mode = .jvs →
    t = { s with
      rx := { s.rx with state := .getDestination, escape := false, sum := 0, count := 0 }
      ret := .rx false } →
    exec .sync s = .next t ∧ exec (.jvsRxByte s.cfg.jvsSync) s = .next t

/-- An unescaped `ESCAPE` inside a frame and the byte after it are read as one byte, `w + 1`, in
every field; in `WaitSync` both are discarded (44_jvs_framing.md R194, R193; `ESCAPE` as one
operation with its byte is log 14). -/
def Obligations.EscapePairIsOneByte : Prop :=
  ∀ (w : Byte) (s : State), s.cfg.wf = true → s.cfg.mode = .jvs → w ≠ 0xE0 →
    s.rx.escape = false →
    ∃ t, exec (.escape w) s = .next t
      ∧ (s.rx.state = .waitSync → t = { s with ret := .rx false })
      ∧ (s.rx.state ≠ .waitSync → ReceivedAs (w + 1) s t)

/-- `ChecksumError`: where the transformed checksum byte differs from the running sum the
decoder is back in `WaitSync` and no register outside the receive registers changes: nothing is
sent, nothing dispatched (60_exceptions.md R281, 44_jvs_framing.md R198). -/
def Obligations.ChecksumErrorChangesNothingElse : Prop :=
  ∀ (w b : Byte) (s : State),
    s.cfg.wf = true → s.cfg.mode = .jvs → s.rx.state = .getChecksum → w ≠ 0xE0 →
    ¬ (w = 0xD0 ∧ s.rx.escape = false) →
    b = (if s.rx.escape then w + 1 else w) → b ≠ s.rx.sum →
    ∃ t, exec (.jvsRxByte w) s = .next t ∧ t.rx.state = .waitSync
      ∧ conditionsRaised t.trace = conditionsRaised s.trace ++ [.checksumError]
      ∧ framesSent t.trace = framesSent s.trace
      ∧ t = { s with rx := t.rx, ret := .rx false, trace := t.trace }
      ∧ t.rx = { s.rx with state := .waitSync, escape := false }

/-- `JVS_TX_FRAME`: the wire bytes of a frame with at most 252 data bytes are handed to the serial
port in one piece and returned, and no register changes; more data bytes are no valid call
(44_jvs_framing.md R210). -/
def Obligations.TransmitFrameBytes : Prop :=
  ∀ (dest : Byte) (data : List Byte) (s : State), s.cfg.wf = true →
    (data.length ≤ 252 → s.cfg.mode = .jvs →
      ∃ (len cs : Byte) (wire : List Byte),
        len.toNat = data.length + 1
        ∧ cs.toNat = (dest.toNat + len.toNat + (data.map BitVec.toNat).sum) % 256
        ∧ wire = 0xE0 :: ([dest, len] ++ data ++ [cs]).flatMap
            (fun b => if b = 0xE0 ∨ b = 0xD0 then [0xD0, b - 1] else [b])
        ∧ exec (.jvsTxFrame dest data) s = .next { s with
            trace := s.trace ++ [.serialSend wire], ret := .wire wire })
    ∧ (252 < data.length → exec (.jvsTxFrame dest data) s = .refused .dataTooLong)

/-- Byte stuffing: after the leading `SYNC` no `SYNC` is on the wire, every `ESCAPE` on it is
followed by 0xDF or 0xCF, and the wire form of `n` data bytes has between `n + 4` and `2n + 7`
bytes (30_encoding.md R83, R102). -/
def Obligations.WireFormIsStuffed : Prop :=
  ∀ (c : Config) (dest : Byte) (data : List Byte), c.wf = true → data.length ≤ 252 →
    ∃ tail, wireFrame c dest data = 0xE0 :: tail ∧ (0xE0 : Byte) ∉ tail
      ∧ (∀ k : Nat, tail[k]? = some (0xD0 : Byte) →
          tail[k + 1]? = some (0xDF : Byte) ∨ tail[k + 1]? = some (0xCF : Byte))
      ∧ data.length + 4 ≤ (wireFrame c dest data).length
      ∧ (wireFrame c dest data).length ≤ 2 * data.length + 7

/-- The frame round trip: from any decoder state, the bytes of `JVS_TX_FRAME(dest, data)` return
nothing but for the last, which completes the frame with that destination and data
(44_jvs_framing.md R203). -/
def Obligations.FrameRoundTrip : Prop :=
  ∀ (c : Config) (dest : Byte) (data : List Byte) (r : Rx),
    c.wf = true → data.length ≤ 252 → r.buf.length = 252 →
    receiveResults c (wireFrame c dest data) r
      = List.replicate ((wireFrame c dest data).length - 1) .none ++ [.complete]
    ∧ (receiveAll c (wireFrame c dest data) r).dest = dest
    ∧ (receiveAll c (wireFrame c dest data) r).count = data.length
    ∧ (receiveAll c (wireFrame c dest data) r).buf.take data.length = data
    ∧ (receiveAll c (wireFrame c dest data) r).state = .waitSync
    ∧ (receiveAll c (wireFrame c dest data) r).escape = false

/-- Checksum corruption: one data byte changed on the wire makes the decoder discard the frame
with a `ChecksumError` at its last byte and return to `WaitSync`. The changed byte is either an
ordinary one that becomes another ordinary one, or the second byte of an escape pair that
becomes any other byte but `SYNC`; neither changes the byte count (44_jvs_framing.md R203,
R198). -/
def Obligations.CorruptedByteIsDetected : Prop :=
  ∀ (c : Config) (dest len cs old : Byte) (data : List Byte) (k : Nat) (image wire : List Byte)
    (r : Rx),
    c.wf = true → data.length ≤ 252 → r.buf.length = 252 → data[k]? = some old →
    len = BitVec.ofNat 8 (data.length + 1) → cs = byteSum (dest :: len :: data) →
    ((old ≠ 0xE0 ∧ old ≠ 0xD0 ∧ ∃ new : Byte,
        new ≠ old ∧ new ≠ 0xE0 ∧ new ≠ 0xD0 ∧ image = [new])
      ∨ ((old = 0xE0 ∨ old = 0xD0) ∧ ∃ w : Byte, w ≠ old - 1 ∧ w ≠ 0xE0 ∧ image = [0xD0, w])) →
    wire = 0xE0 :: ((dest :: len :: data.take k).flatMap (stuff c) ++ image
      ++ (data.drop (k + 1) ++ [cs]).flatMap (stuff c)) →
    receiveResults c wire r = List.replicate (wire.length - 1) .none ++ [.checksumError]
    ∧ (receiveAll c wire r).state = .waitSync

/-! ## JVS commands -/

/-- `RESET` clears the id and de-asserts the sense line, `ASSIGN_ADDR` takes the address and
asserts it, unconditionally; each moves `cmd_ptr` by its two bytes and appends an empty body;
nothing else changes (45_jvs_commands.md R230, R231; D27 to D29; the optional report byte R227,
D25). -/
def Obligations.ResetAndAssignAddr : Prop :=
  ∀ (a1 : Byte) (s : State) (report : List Byte), s.cfg.mode = .jvs →
    report = (if s.cfg.perCommandReport then [s.cfg.statusSuccess] else []) →
    s.txBuf.length + report.length ≤ s.cfg.jvsMaxPayload →
    exec (.reset a1) s = .next { s with
      proto := .uninitialized, deviceId := 0, txBuf := s.txBuf ++ report, cmdPtr := s.cmdPtr + 2 }
    ∧ exec (.assignAddr a1) s = .next { s with
      proto := .addressed, deviceId := a1, txBuf := s.txBuf ++ report, cmdPtr := s.cmdPtr + 2 }

/-- The five queries append their parameter's bytes and move `cmd_ptr` by one; nothing else changes
(45_jvs_commands.md R232 to R236; contents D26). -/
def Obligations.IdentityQueries : Prop :=
  ∀ (s : State) (i : Instr) (body report : List Byte), s.cfg.mode = .jvs →
    ((i = .ioIdent ∧ body = s.cfg.idString) ∨ (i = .cmdRev ∧ body = [s.cfg.cmdRev])
      ∨ (i = .jvsRev ∧ body = [s.cfg.jvsRev]) ∨ (i = .commVer ∧ body = [s.cfg.commVer])
      ∨ (i = .featChk ∧ body = s.cfg.features)) →
    report = (if s.cfg.perCommandReport then [s.cfg.statusSuccess] else []) →
    s.txBuf.length + (report ++ body).length ≤ s.cfg.jvsMaxPayload →
    exec i s = .next { s with
      txBuf := s.txBuf ++ (report ++ body), cmdPtr := s.cmdPtr + 1 }

/-- `READ_SWITCHES(a1, a2)`: `SYS`, then `a1` players of `a2` bytes each, a byte the block does not
hold reading 0x00; nothing else changes (45_jvs_commands.md R238; D30, D31). -/
def Obligations.ReadSwitchesBody : Prop :=
  ∀ (a1 a2 : Byte) (s : State) (report : List Byte), s.cfg.mode = .jvs → s.inputsOk →
    report = (if s.cfg.perCommandReport then [s.cfg.statusSuccess] else []) →
    s.txBuf.length + report.length + 1 + a1.toNat * a2.toNat ≤ s.cfg.jvsMaxPayload →
    ∃ body : List Byte,
      exec (.readSwitches a1 a2) s = .next { s with
        txBuf := s.txBuf ++ (report ++ s.sys :: body), cmdPtr := s.cmdPtr + 3 }
      ∧ body.length = a1.toNat * a2.toNat
      ∧ ∀ p y, p < a1.toNat → y < a2.toNat →
          ((p < s.cfg.jvsPlayers ∧ y < s.cfg.switchBytes) →
            ∃ row, s.sw[p]? = some row ∧ body[p * a2.toNat + y]? = row[y]?)
          ∧ (¬ (p < s.cfg.jvsPlayers ∧ y < s.cfg.switchBytes) →
            body[p * a2.toNat + y]? = some 0x00)

/-- `READ_COINS(a1)`: two bytes for each slot, the counter's bits 13:8 then its bits 7:0, a slot the
block does not hold reading 0; no counter changes (45_jvs_commands.md R239, 30_encoding.md R94;
D32). -/
def Obligations.ReadCoinsBody : Prop :=
  ∀ (a1 : Byte) (s : State) (report : List Byte),
    s.cfg.wf = true → s.cfg.mode = .jvs → s.inputsOk →
    report = (if s.cfg.perCommandReport then [s.cfg.statusSuccess] else []) →
    s.txBuf.length + report.length + 2 * a1.toNat ≤ 252 →
    ∃ body : List Byte,
      exec (.readCoins a1) s = .next { s with
        txBuf := s.txBuf ++ (report ++ body), cmdPtr := s.cmdPtr + 2 }
      ∧ body.length = 2 * a1.toNat
      ∧ ∀ c, c < a1.toNat →
          ∃ hi lo : Byte, body[2 * c]? = some hi ∧ body[2 * c + 1]? = some lo
            ∧ hi.toNat * 256 + lo.toNat = (if c < s.cfg.coinSlots then s.coin.getD c 0 else 0)
            ∧ hi.toNat < 64

/-- `RETRANSMIT` sends the previous packet again byte for byte and leaves it recorded; before
any packet nothing is sent; either way the dispatch is over (45_jvs_commands.md R240; D33). That
`tx_buf` still holds the packet under construction, which R240 calls thrown away and no rule
reads again, is the model's choice, log 26. -/
def Obligations.RetransmitResendsLastPacket : Prop :=
  ∀ s : State, s.cfg.mode = .jvs →
    (s.lastTx.valid = true → exec .retransmit s = .next { s with
      trace := s.trace ++ [.serialSend (wireFrame s.cfg s.cfg.masterAddr s.lastTx.bytes)]
      phase := .boundary
      ret := .unit })
    ∧ (s.lastTx.valid = false →
      exec .retransmit s = .next { s with phase := .boundary, ret := .unit })

/-- "An unsupported command sets status `UNSUPPORTED`, truncates the response to that single
byte, and stops processing remaining commands in the same frame": the packet is that byte, it is
recorded and sent, the walk is over (45_jvs_commands.md R241, 60_exceptions.md R282). That such
a packet is recorded is the spec's decision D41 (R224); that this one operation records it,
sends it and ends the iteration is the model's choice, log 19. -/
def Obligations.UnsupportedTruncatesAndStops : Prop :=
  ∀ (x : Byte) (s : State), s.cfg.mode = .jvs →
    exec (.unsupported x) s = .next { s with
      txBuf := [s.cfg.statusUnsupported]
      lastTx := ⟨true, [s.cfg.statusUnsupported]⟩
      trace := s.trace ++ [.condition (.unsupportedCommand x),
        .serialSend (wireFrame s.cfg s.cfg.masterAddr [s.cfg.statusUnsupported])]
      phase := .boundary
      ret := .unit }

/-- A response that would make the packet longer than 252 bytes ends the dispatch as an
unsupported command, with the command's own byte reported; the side effects of `RESET` and
`ASSIGN_ADDR` have happened (45_jvs_commands.md R223; the spec's decision D35). -/
def Obligations.ResponseOverflowIsUnsupported : Prop :=
  ∀ (s s0 : State) (i : Instr) (op : Byte) (body report : List Byte), s.cfg.mode = .jvs →
    report = (if s.cfg.perCommandReport then [s.cfg.statusSuccess] else []) →
    ((∃ a1, i = .reset a1 ∧ op = s.cfg.ops.reset ∧ body = []
        ∧ s0 = { s with proto := .uninitialized, deviceId := 0 })
      ∨ (∃ a1, i = .assignAddr a1 ∧ op = s.cfg.ops.assignAddr ∧ body = []
        ∧ s0 = { s with proto := .addressed, deviceId := a1 })
      ∨ (i = .ioIdent ∧ op = s.cfg.ops.ioIdent ∧ body = s.cfg.idString ∧ s0 = s)
      ∨ (i = .cmdRev ∧ op = s.cfg.ops.cmdRev ∧ body = [s.cfg.cmdRev] ∧ s0 = s)
      ∨ (i = .jvsRev ∧ op = s.cfg.ops.jvsRev ∧ body = [s.cfg.jvsRev] ∧ s0 = s)
      ∨ (i = .commVer ∧ op = s.cfg.ops.commVer ∧ body = [s.cfg.commVer] ∧ s0 = s)
      ∨ (i = .featChk ∧ op = s.cfg.ops.featChk ∧ body = s.cfg.features ∧ s0 = s)
      ∨ (∃ a1 a2 : Byte, i = .readSwitches a1 a2 ∧ op = s.cfg.ops.readSwitches
        ∧ body.length = 1 + a1.toNat * a2.toNat ∧ s0 = s)
      ∨ (∃ a1 : Byte, i = .readCoins a1 ∧ op = s.cfg.ops.readCoins
        ∧ body.length = 2 * a1.toNat ∧ s0 = s)) →
    s.cfg.jvsMaxPayload < s.txBuf.length + (report ++ body).length →
    exec i s = .next { s0 with
      txBuf := [s.cfg.statusUnsupported]
      lastTx := ⟨true, [s.cfg.statusUnsupported]⟩
      trace := s.trace ++ [.condition (.unsupportedCommand op),
        .serialSend (wireFrame s.cfg s.cfg.masterAddr [s.cfg.statusUnsupported])]
      phase := .boundary
      ret := .unit }

/-! ## The dispatcher -/

/-- A complete frame that is neither broadcast nor for the assigned id, or any frame that is not
broadcast while `Uninitialized`, is dropped whole: nothing is executed or sent, no register
changes, `last_tx` is untouched (45_jvs_commands.md R220, R225; that no id matches while
`Uninitialized` is the spec's decision D29, 10_state.md R39, log 24). -/
def Obligations.UnaddressedFrameIsDropped : Prop :=
  ∀ s : State, s.cfg.mode = .jvs → s.rx.dest ≠ s.cfg.broadcastAddr →
    (s.proto = .uninitialized ∨ s.rx.dest ≠ s.deviceId) →
    exec .jvsDispatch s = .next { s with phase := .boundary, ret := .unit }

/-- A dispatch of an addressed frame is its program, command after command: if the frame is
broadcast, or for the assigned id while `Addressed`, and its data are the bytes of a list of
well-formed commands, `JVS_DISPATCH` runs exactly those commands in order, each seeing the
effects of those before it, from a packet with its status byte (45_jvs_commands.md R220, R221;
30_encoding.md R105). -/
def Obligations.DispatchRunsTheFramesCommands : Prop :=
  ∀ (s : State) (program : List Command),
    s.cfg.wf = true → s.cfg.mode = .jvs →
    (s.rx.dest = s.cfg.broadcastAddr ∨ (s.proto = .addressed ∧ s.rx.dest = s.deviceId)) →
    (∀ cmd ∈ program, cmd.toInstr.wf s.cfg = true) →
    s.rx.count ≤ s.rx.buf.length → s.rx.buf.take s.rx.count = assemble s.cfg program →
    exec .jvsDispatch s
      = runProgram program { s with
          txBuf := [s.cfg.statusSuccess], cmdPtr := 0, phase := .walk }

/-- Every dispatch ends, with at most one frame on the line, addressed to the master, of 1 to
252 data bytes, which is then the recorded packet. A frame that is addressed (broadcast, or for
the assigned id while `Addressed`) is answered whenever a packet has been recorded before or the
frame holds no `RETRANSMIT`; a frame that is not addressed never is (45_jvs_commands.md R220,
R221, R224, R225; the premise is the one of 93 U5). -/
def Obligations.DispatchAnswersOnce : Prop :=
  ∀ (s : State) (addressed : Prop), s.cfg.wf = true → s.cfg.mode = .jvs →
    (s.lastTx.valid = true → 1 ≤ s.lastTx.bytes.length ∧ s.lastTx.bytes.length ≤ 252) →
    (addressed ↔ s.rx.dest = s.cfg.broadcastAddr
      ∨ (s.proto = .addressed ∧ s.rx.dest = s.deviceId)) →
    ∃ (t : State) (es : List Event),
      exec .jvsDispatch s = .next t ∧ t.trace = s.trace ++ es ∧ t.phase = .boundary
      ∧ (framesSent es = [] ∨ ∃ data, framesSent es = [wireFrame s.cfg s.cfg.masterAddr data]
          ∧ 1 ≤ data.length ∧ data.length ≤ 252 ∧ t.lastTx = ⟨true, data⟩)
      ∧ (addressed → s.lastTx.valid = true
            ∨ Command.retransmit ∉ disassemble s.cfg s.rx.count (s.rx.buf.take s.rx.count) →
          framesSent es ≠ [])
      ∧ (¬ addressed → framesSent es = [])

/-- `POLL` in `Jvs` mode answers a next state on whatever the line presented: it consumes
results from the front and leaves the rest. Of the bytes the line presents, up to their end or
the first time-out: if they complete a frame, it is dispatched and the iteration ends, with at
most one frame sent; if they complete none and a time-out follows, the iteration ends there,
nothing sent; if they complete none and no time-out follows, they are used up, nothing is sent,
and the block is still receiving (46_pipeline.md R263, 70_reset_and_hazards.md R329; that `POLL`
as one operation stops where the presented results do is log 9). -/
def Obligations.JvsPollEndsOrKeepsReceiving : Prop :=
  ∀ (now : Nat) (s : State), s.Inv → s.cfg.mode = .jvs →
    ∃ (t : State) (es : List Event) (used : List (Option Byte)),
      exec (.poll now) s = .next t ∧ t.trace = s.trace ++ es
      ∧ s.ports.serial = used ++ t.ports.serial
      ∧ (t.phase = .boundary
        ∨ (t.phase = .receive ∧ t.ports.serial = [] ∧ none ∉ used ∧ framesSent es = []))
      ∧ (none ∈ s.ports.serial → t.phase = .boundary)
      ∧ (∀ (bytes : List Byte) (more : List (Option Byte)),
          s.ports.serial = bytes.map some ++ more →
          (RxResult.complete ∈ receiveResults s.cfg bytes s.rx →
            t.phase = .boundary ∧ ∃ unread, t.ports.serial = unread ++ more)
          ∧ (RxResult.complete ∉ receiveResults s.cfg bytes s.rx →
            (more = [] → t.phase = .receive ∧ t.ports.serial = []
              ∧ t.rx = receiveAll s.cfg bytes s.rx ∧ framesSent es = [])
            ∧ (∀ later, more = none :: later → t.phase = .boundary ∧ t.ports.serial = later
              ∧ t.rx = receiveAll s.cfg bytes s.rx ∧ framesSent es = [])))
      ∧ (framesSent es).length ≤ 1 ∧ reportsOffered es = []

/-- The step's small steps of a `Jvs` iteration (the scan, each wire symbol, each command, the
answer) together do exactly what the one operation `POLL` does with the results the line
presents (46_pipeline.md R263, 20_memory.md R67; log 6, log 9, log 14). -/
def Obligations.JvsPollIsItsSteps : Prop :=
  ∀ (s : State) (i : PollInput),
    s.Inv → s.cfg.mode = .jvs → s.phase = .boundary → s.reconfigPending = false →
    nextAct s = .poll i →
    ∃ (n : Nat) (t : State),
      exec (.poll i.now) { s with
        script := s.script.tail, tick := s.tick + 1
        ports := ⟨i.high, i.transport, s.ports.serial ++ i.serial⟩ } = .next t
      ∧ runsTo n s t

/-- A `Jvs` iteration starts with the scan and then sets the switches, before any byte is
received: `DB` and the pin reads are exactly those of `SCAN`; each scanned input whose function
has a JVS switch sets it to the input's stable level, the higher index deciding where two inputs
share one; every other bit of `SW` and every other register stays (46_pipeline.md R263, R266;
the spec's decision D43). -/
def Obligations.JvsIterationStartsWithTheSwitches : Prop :=
  ∀ (now : Nat) (s : State) (position : Nat → Nat), s.Inv → s.cfg.mode = .jvs →
    (∀ button, position button
      = if s.cfg.switchMsbFirst then 7 - button % 8 else button % 8) →
    ∃ s1 t : State,
      exec (.scan now) s = .next s1 ∧ t = pollStart now s
      ∧ t = { s1 with sw := t.sw, phase := .receive, ret := s.ret }
      ∧ (∀ (i button : Nat) (inp : Input) (d : Debounce) (row : List Byte) (b : Byte),
          s.cfg.inputs[i]? = some inp →
          switchOf s.cfg (tableEntry s.map inp.player inp.slot) = some button →
          (∀ j inp', i < j → s.cfg.inputs[j]? = some inp' →
            ¬ (inp'.player = inp.player
              ∧ switchOf s.cfg (tableEntry s.map inp'.player inp'.slot) = some button)) →
          s1.db[i]? = some d →
          t.sw[inp.player - 1]? = some row → row[button / 8]? = some b →
          b.getLsbD (position button) = d.stable)
      ∧ (∀ (p y bit : Nat) (old new : Byte), bit < 8 →
          (s.sw[p]?.bind (fun row => row[y]?)) = some old →
          (t.sw[p]?.bind (fun row => row[y]?)) = some new →
          (∀ inp ∈ s.cfg.inputs, ∀ button,
            switchOf s.cfg (tableEntry s.map inp.player inp.slot) = some button →
            ¬ (inp.player = p + 1 ∧ button / 8 = y ∧ position button = bit)) →
          new.getLsbD bit = old.getLsbD bit)
      ∧ t.inputsOk

/-! ## The side-channel -/

/-- `SET_SWITCH` writes one bit of `SW` to the given level and no other; an index outside `SW`
has no effect (45_jvs_commands.md R245; bit position D31, out of range D42). -/
def Obligations.SetSwitchWritesOneBit : Prop :=
  ∀ (player button : Nat) (pressed : Bool) (s : State), s.cfg.mode = .jvs → s.inputsOk →
    ∃ t, exec (.setSwitch player button pressed) s = .next t
      ∧ t = { s with sw := t.sw }
      ∧ (¬ (1 ≤ player ∧ player ≤ s.cfg.jvsPlayers ∧ button < 8 * s.cfg.switchBytes) → t = s)
      ∧ (1 ≤ player → player ≤ s.cfg.jvsPlayers → button < 8 * s.cfg.switchBytes →
          ∀ (p y bit : Nat) (old new : Byte), bit < 8 →
            (s.sw[p]?.bind (fun row => row[y]?)) = some old →
            (t.sw[p]?.bind (fun row => row[y]?)) = some new →
            new.getLsbD bit =
              (if p + 1 = player ∧ y = button / 8
                  ∧ bit = (if s.cfg.switchMsbFirst then 7 - button % 8 else button % 8)
                then pressed else old.getLsbD bit))
      ∧ t.inputsOk

/-- `INC_COIN` advances one counter by one, saturating at `JVS_COIN_MAX`, and no other; a slot
outside `COIN` has no effect (45_jvs_commands.md R246; step and range D32, D42). -/
def Obligations.IncCoinSaturates : Prop :=
  ∀ (slot : Nat) (s : State), s.cfg.mode = .jvs → s.inputsOk →
    ∃ t, exec (.incCoin slot) s = .next t
      ∧ t = { s with coin := t.coin }
      ∧ (s.cfg.coinSlots ≤ slot → t = s)
      ∧ (∀ k n, s.coin[k]? = some n →
          t.coin[k]? = some (if k = slot then min (n + 1) s.cfg.jvsCoinMax else n))

/-! ## Rules of the whole machine -/

/-- "Sense line state is a direct function of this machine's current state": it is asserted
exactly in `Addressed`. `ASSIGN_ADDR` leads to `Addressed` with its address, `RESET` to
`Uninitialized` with id 0x00; a dispatch of a frame that holds neither, a `POLL` outside `Jvs`
mode, and every other command and operation leave the protocol state and the id as they are
(45_jvs_commands.md R243, 10_state.md R42). -/
def Obligations.OnlyResetAndAssignMoveTheSenseLine : Prop :=
  ∀ (i : Instr) (s t : State), exec i s = .next t →
    (t.sense = true ↔ t.proto = .addressed)
    ∧ match i with
      | .assignAddr a1 => t.proto = .addressed ∧ t.deviceId = a1
      | .reset _ => t.proto = .uninitialized ∧ t.deviceId = 0
      | .jvsDispatch =>
        (∀ cmd ∈ disassemble s.cfg s.rx.count (s.rx.buf.take s.rx.count),
          (∀ a, cmd ≠ .reset a) ∧ (∀ a, cmd ≠ .assignAddr a)) →
        t.proto = s.proto ∧ t.deviceId = s.deviceId
      | .poll _ => s.cfg.mode ≠ .jvs → t.proto = s.proto ∧ t.deviceId = s.deviceId
      | _ => t.proto = s.proto ∧ t.deviceId = s.deviceId

/-- Who writes what: the parameters and `SYS` are written by nothing, `DB` by `SCAN` and `POLL`
alone, `MAP` and the pending flag by `RECONFIG` alone, `JOY_LAST` by `POLL` in `Joystick` mode
and `KBD_LAST` by `POLL` in `Keyboard` mode alone, the receive registers by reception, `SW` by
`SET_SWITCH` and `COIN` by `INC_COIN` alone, the protocol registers by `RESET` and
`ASSIGN_ADDR`, `tx_buf` and `cmd_ptr` by a dispatch and its commands, and `last_tx` by a
dispatch, a single command reaching it only as one answered `UNSUPPORTED` (10_state.md R53; a
`POLL` in `Jvs` mode contains the operations of its iteration, 46_pipeline.md R263; the last
clause is log 19). -/
def Obligations.AccessMatrix : Prop :=
  ∀ (i : Instr) (s t : State) (noPoll noJvsPoll : Prop),
    (noPoll ↔ ∀ now, i ≠ .poll now) → (noJvsPoll ↔ noPoll ∨ s.cfg.mode ≠ .jvs) →
    exec i s = .next t →
    t.cfg = s.cfg ∧ t.sys = s.sys ∧ t.reconfigTable = s.reconfigTable
    ∧ (noPoll → (∀ now, i ≠ .scan now) → t.db = s.db)
    ∧ ((∀ table, i ≠ .reconfig table) → t.map = s.map ∧ t.reconfigPending = s.reconfigPending)
    ∧ (noPoll ∨ s.cfg.mode ≠ .joystick → t.joyLast = s.joyLast)
    ∧ (noPoll ∨ s.cfg.mode ≠ .keyboard → t.kbdLast = s.kbdLast)
    ∧ (noJvsPoll → (∀ w, i ≠ .jvsRxByte w) → i ≠ .sync → (∀ w, i ≠ .escape w) → t.rx = s.rx)
    ∧ (noJvsPoll → (∀ p b x, i ≠ .setSwitch p b x) → t.sw = s.sw)
    ∧ ((∀ slot, i ≠ .incCoin slot) → t.coin = s.coin)
    ∧ (noJvsPoll → i ≠ .jvsDispatch → (∀ a, i ≠ .reset a) → (∀ a, i ≠ .assignAddr a) →
        t.proto = s.proto ∧ t.deviceId = s.deviceId)
    ∧ (noJvsPoll → i ≠ .jvsDispatch → (∀ cmd : Command, i ≠ cmd.toInstr) →
        t.txBuf = s.txBuf ∧ t.cmdPtr = s.cmdPtr)
    ∧ (noJvsPoll → i ≠ .jvsDispatch →
        t.lastTx = s.lastTx
        ∨ ∃ cmd : Command, i = cmd.toInstr ∧ cmd ≠ .retransmit
          ∧ t.lastTx = ⟨true, [s.cfg.statusUnsupported]⟩ ∧ t.phase = .boundary)

/-- In a build that is not `Jvs`, no operation that answers a next state changes any JVS register or
sends a frame (10_state.md R40; 44 and 45 "exist in `Jvs` mode only"; log 11). -/
def Obligations.UsbBuildsHaveNoJvsState : Prop :=
  ∀ (i : Instr) (s t : State), s.cfg.mode ≠ .jvs → exec i s = .next t →
    t.rx = s.rx ∧ t.proto = s.proto ∧ t.deviceId = s.deviceId ∧ t.sw = s.sw ∧ t.coin = s.coin
    ∧ t.lastTx = s.lastTx ∧ t.txBuf = s.txBuf ∧ t.cmdPtr = s.cmdPtr
    ∧ framesSent t.trace = framesSent s.trace

/-- A coin counter never goes down, whatever operation runs, and never past `JVS_COIN_MAX`:
"coin counters saturate at 16383 and never wrap" (10_state.md R45). -/
def Obligations.CoinsNeverGoDown : Prop :=
  ∀ (i : Instr) (s t : State), s.inputsOk → exec i s = .next t →
    ∀ k n : Nat, s.coin[k]? = some n → ∃ m, t.coin[k]? = some m ∧ n ≤ m ∧ m ≤ s.cfg.jvsCoinMax
end

