-- ==== Sys2Proof/Laws/State.lean ====
section
/-! SUPPORT. One lemma per field per update of State, each true by `rfl`. -/

namespace Sys2Proof.Machine

open Sys2Proof

/-! ## `emit` -/

@[simp] theorem emit_cfg (s : State) (es : List Event) : (s.emit es).cfg = s.cfg := rfl
@[simp] theorem emit_db (s : State) (es : List Event) : (s.emit es).db = s.db := rfl
@[simp] theorem emit_map (s : State) (es : List Event) : (s.emit es).map = s.map := rfl
@[simp] theorem emit_reconfigPending (s : State) (es : List Event) : (s.emit es).reconfigPending = s.reconfigPending := rfl
@[simp] theorem emit_reconfigTable (s : State) (es : List Event) : (s.emit es).reconfigTable = s.reconfigTable := rfl
@[simp] theorem emit_joyLast (s : State) (es : List Event) : (s.emit es).joyLast = s.joyLast := rfl
@[simp] theorem emit_kbdLast (s : State) (es : List Event) : (s.emit es).kbdLast = s.kbdLast := rfl
@[simp] theorem emit_rx (s : State) (es : List Event) : (s.emit es).rx = s.rx := rfl
@[simp] theorem emit_cmdPtr (s : State) (es : List Event) : (s.emit es).cmdPtr = s.cmdPtr := rfl
@[simp] theorem emit_txBuf (s : State) (es : List Event) : (s.emit es).txBuf = s.txBuf := rfl
@[simp] theorem emit_proto (s : State) (es : List Event) : (s.emit es).proto = s.proto := rfl
@[simp] theorem emit_deviceId (s : State) (es : List Event) : (s.emit es).deviceId = s.deviceId := rfl
@[simp] theorem emit_sw (s : State) (es : List Event) : (s.emit es).sw = s.sw := rfl
@[simp] theorem emit_sys (s : State) (es : List Event) : (s.emit es).sys = s.sys := rfl
@[simp] theorem emit_coin (s : State) (es : List Event) : (s.emit es).coin = s.coin := rfl
@[simp] theorem emit_lastTx (s : State) (es : List Event) : (s.emit es).lastTx = s.lastTx := rfl
@[simp] theorem emit_ports (s : State) (es : List Event) : (s.emit es).ports = s.ports := rfl
@[simp] theorem emit_script (s : State) (es : List Event) : (s.emit es).script = s.script := rfl
@[simp] theorem emit_tick (s : State) (es : List Event) : (s.emit es).tick = s.tick := rfl
@[simp] theorem emit_phase (s : State) (es : List Event) : (s.emit es).phase = s.phase := rfl
@[simp] theorem emit_ret (s : State) (es : List Event) : (s.emit es).ret = s.ret := rfl
@[simp] theorem emit_trace (s : State) (es : List Event) : (s.emit es).trace = s.trace ++ es := rfl

/-! ## `withRet` -/

@[simp] theorem withRet_cfg (s : State) (r : Ret) : (s.withRet r).cfg = s.cfg := rfl
@[simp] theorem withRet_db (s : State) (r : Ret) : (s.withRet r).db = s.db := rfl
@[simp] theorem withRet_map (s : State) (r : Ret) : (s.withRet r).map = s.map := rfl
@[simp] theorem withRet_reconfigPending (s : State) (r : Ret) : (s.withRet r).reconfigPending = s.reconfigPending := rfl
@[simp] theorem withRet_reconfigTable (s : State) (r : Ret) : (s.withRet r).reconfigTable = s.reconfigTable := rfl
@[simp] theorem withRet_joyLast (s : State) (r : Ret) : (s.withRet r).joyLast = s.joyLast := rfl
@[simp] theorem withRet_kbdLast (s : State) (r : Ret) : (s.withRet r).kbdLast = s.kbdLast := rfl
@[simp] theorem withRet_rx (s : State) (r : Ret) : (s.withRet r).rx = s.rx := rfl
@[simp] theorem withRet_cmdPtr (s : State) (r : Ret) : (s.withRet r).cmdPtr = s.cmdPtr := rfl
@[simp] theorem withRet_txBuf (s : State) (r : Ret) : (s.withRet r).txBuf = s.txBuf := rfl
@[simp] theorem withRet_proto (s : State) (r : Ret) : (s.withRet r).proto = s.proto := rfl
@[simp] theorem withRet_deviceId (s : State) (r : Ret) : (s.withRet r).deviceId = s.deviceId := rfl
@[simp] theorem withRet_sw (s : State) (r : Ret) : (s.withRet r).sw = s.sw := rfl
@[simp] theorem withRet_sys (s : State) (r : Ret) : (s.withRet r).sys = s.sys := rfl
@[simp] theorem withRet_coin (s : State) (r : Ret) : (s.withRet r).coin = s.coin := rfl
@[simp] theorem withRet_lastTx (s : State) (r : Ret) : (s.withRet r).lastTx = s.lastTx := rfl
@[simp] theorem withRet_ports (s : State) (r : Ret) : (s.withRet r).ports = s.ports := rfl
@[simp] theorem withRet_script (s : State) (r : Ret) : (s.withRet r).script = s.script := rfl
@[simp] theorem withRet_tick (s : State) (r : Ret) : (s.withRet r).tick = s.tick := rfl
@[simp] theorem withRet_phase (s : State) (r : Ret) : (s.withRet r).phase = s.phase := rfl
@[simp] theorem withRet_ret (s : State) (r : Ret) : (s.withRet r).ret = r := rfl
@[simp] theorem withRet_trace (s : State) (r : Ret) : (s.withRet r).trace = s.trace := rfl

/-! ## `withPhase` -/

@[simp] theorem withPhase_cfg (s : State) (p : Phase) : (s.withPhase p).cfg = s.cfg := rfl
@[simp] theorem withPhase_db (s : State) (p : Phase) : (s.withPhase p).db = s.db := rfl
@[simp] theorem withPhase_map (s : State) (p : Phase) : (s.withPhase p).map = s.map := rfl
@[simp] theorem withPhase_reconfigPending (s : State) (p : Phase) : (s.withPhase p).reconfigPending = s.reconfigPending := rfl
@[simp] theorem withPhase_reconfigTable (s : State) (p : Phase) : (s.withPhase p).reconfigTable = s.reconfigTable := rfl
@[simp] theorem withPhase_joyLast (s : State) (p : Phase) : (s.withPhase p).joyLast = s.joyLast := rfl
@[simp] theorem withPhase_kbdLast (s : State) (p : Phase) : (s.withPhase p).kbdLast = s.kbdLast := rfl
@[simp] theorem withPhase_rx (s : State) (p : Phase) : (s.withPhase p).rx = s.rx := rfl
@[simp] theorem withPhase_cmdPtr (s : State) (p : Phase) : (s.withPhase p).cmdPtr = s.cmdPtr := rfl
@[simp] theorem withPhase_txBuf (s : State) (p : Phase) : (s.withPhase p).txBuf = s.txBuf := rfl
@[simp] theorem withPhase_proto (s : State) (p : Phase) : (s.withPhase p).proto = s.proto := rfl
@[simp] theorem withPhase_deviceId (s : State) (p : Phase) : (s.withPhase p).deviceId = s.deviceId := rfl
@[simp] theorem withPhase_sw (s : State) (p : Phase) : (s.withPhase p).sw = s.sw := rfl
@[simp] theorem withPhase_sys (s : State) (p : Phase) : (s.withPhase p).sys = s.sys := rfl
@[simp] theorem withPhase_coin (s : State) (p : Phase) : (s.withPhase p).coin = s.coin := rfl
@[simp] theorem withPhase_lastTx (s : State) (p : Phase) : (s.withPhase p).lastTx = s.lastTx := rfl
@[simp] theorem withPhase_ports (s : State) (p : Phase) : (s.withPhase p).ports = s.ports := rfl
@[simp] theorem withPhase_script (s : State) (p : Phase) : (s.withPhase p).script = s.script := rfl
@[simp] theorem withPhase_tick (s : State) (p : Phase) : (s.withPhase p).tick = s.tick := rfl
@[simp] theorem withPhase_phase (s : State) (p : Phase) : (s.withPhase p).phase = p := rfl
@[simp] theorem withPhase_ret (s : State) (p : Phase) : (s.withPhase p).ret = s.ret := rfl
@[simp] theorem withPhase_trace (s : State) (p : Phase) : (s.withPhase p).trace = s.trace := rfl

/-! ## `withRx` -/

@[simp] theorem withRx_cfg (s : State) (r : Rx) : (s.withRx r).cfg = s.cfg := rfl
@[simp] theorem withRx_db (s : State) (r : Rx) : (s.withRx r).db = s.db := rfl
@[simp] theorem withRx_map (s : State) (r : Rx) : (s.withRx r).map = s.map := rfl
@[simp] theorem withRx_reconfigPending (s : State) (r : Rx) : (s.withRx r).reconfigPending = s.reconfigPending := rfl
@[simp] theorem withRx_reconfigTable (s : State) (r : Rx) : (s.withRx r).reconfigTable = s.reconfigTable := rfl
@[simp] theorem withRx_joyLast (s : State) (r : Rx) : (s.withRx r).joyLast = s.joyLast := rfl
@[simp] theorem withRx_kbdLast (s : State) (r : Rx) : (s.withRx r).kbdLast = s.kbdLast := rfl
@[simp] theorem withRx_rx (s : State) (r : Rx) : (s.withRx r).rx = r := rfl
@[simp] theorem withRx_cmdPtr (s : State) (r : Rx) : (s.withRx r).cmdPtr = s.cmdPtr := rfl
@[simp] theorem withRx_txBuf (s : State) (r : Rx) : (s.withRx r).txBuf = s.txBuf := rfl
@[simp] theorem withRx_proto (s : State) (r : Rx) : (s.withRx r).proto = s.proto := rfl
@[simp] theorem withRx_deviceId (s : State) (r : Rx) : (s.withRx r).deviceId = s.deviceId := rfl
@[simp] theorem withRx_sw (s : State) (r : Rx) : (s.withRx r).sw = s.sw := rfl
@[simp] theorem withRx_sys (s : State) (r : Rx) : (s.withRx r).sys = s.sys := rfl
@[simp] theorem withRx_coin (s : State) (r : Rx) : (s.withRx r).coin = s.coin := rfl
@[simp] theorem withRx_lastTx (s : State) (r : Rx) : (s.withRx r).lastTx = s.lastTx := rfl
@[simp] theorem withRx_ports (s : State) (r : Rx) : (s.withRx r).ports = s.ports := rfl
@[simp] theorem withRx_script (s : State) (r : Rx) : (s.withRx r).script = s.script := rfl
@[simp] theorem withRx_tick (s : State) (r : Rx) : (s.withRx r).tick = s.tick := rfl
@[simp] theorem withRx_phase (s : State) (r : Rx) : (s.withRx r).phase = s.phase := rfl
@[simp] theorem withRx_ret (s : State) (r : Rx) : (s.withRx r).ret = s.ret := rfl
@[simp] theorem withRx_trace (s : State) (r : Rx) : (s.withRx r).trace = s.trace := rfl

/-! ## `withTx` -/

@[simp] theorem withTx_cfg (s : State) (b : List Byte) : (s.withTx b).cfg = s.cfg := rfl
@[simp] theorem withTx_db (s : State) (b : List Byte) : (s.withTx b).db = s.db := rfl
@[simp] theorem withTx_map (s : State) (b : List Byte) : (s.withTx b).map = s.map := rfl
@[simp] theorem withTx_reconfigPending (s : State) (b : List Byte) : (s.withTx b).reconfigPending = s.reconfigPending := rfl
@[simp] theorem withTx_reconfigTable (s : State) (b : List Byte) : (s.withTx b).reconfigTable = s.reconfigTable := rfl
@[simp] theorem withTx_joyLast (s : State) (b : List Byte) : (s.withTx b).joyLast = s.joyLast := rfl
@[simp] theorem withTx_kbdLast (s : State) (b : List Byte) : (s.withTx b).kbdLast = s.kbdLast := rfl
@[simp] theorem withTx_rx (s : State) (b : List Byte) : (s.withTx b).rx = s.rx := rfl
@[simp] theorem withTx_cmdPtr (s : State) (b : List Byte) : (s.withTx b).cmdPtr = s.cmdPtr := rfl
@[simp] theorem withTx_txBuf (s : State) (b : List Byte) : (s.withTx b).txBuf = b := rfl
@[simp] theorem withTx_proto (s : State) (b : List Byte) : (s.withTx b).proto = s.proto := rfl
@[simp] theorem withTx_deviceId (s : State) (b : List Byte) : (s.withTx b).deviceId = s.deviceId := rfl
@[simp] theorem withTx_sw (s : State) (b : List Byte) : (s.withTx b).sw = s.sw := rfl
@[simp] theorem withTx_sys (s : State) (b : List Byte) : (s.withTx b).sys = s.sys := rfl
@[simp] theorem withTx_coin (s : State) (b : List Byte) : (s.withTx b).coin = s.coin := rfl
@[simp] theorem withTx_lastTx (s : State) (b : List Byte) : (s.withTx b).lastTx = s.lastTx := rfl
@[simp] theorem withTx_ports (s : State) (b : List Byte) : (s.withTx b).ports = s.ports := rfl
@[simp] theorem withTx_script (s : State) (b : List Byte) : (s.withTx b).script = s.script := rfl
@[simp] theorem withTx_tick (s : State) (b : List Byte) : (s.withTx b).tick = s.tick := rfl
@[simp] theorem withTx_phase (s : State) (b : List Byte) : (s.withTx b).phase = s.phase := rfl
@[simp] theorem withTx_ret (s : State) (b : List Byte) : (s.withTx b).ret = s.ret := rfl
@[simp] theorem withTx_trace (s : State) (b : List Byte) : (s.withTx b).trace = s.trace := rfl

/-! ## `withSerial` -/

@[simp] theorem withSerial_cfg (s : State) (l : List (Option Byte)) : (s.withSerial l).cfg = s.cfg := rfl
@[simp] theorem withSerial_db (s : State) (l : List (Option Byte)) : (s.withSerial l).db = s.db := rfl
@[simp] theorem withSerial_map (s : State) (l : List (Option Byte)) : (s.withSerial l).map = s.map := rfl
@[simp] theorem withSerial_reconfigPending (s : State) (l : List (Option Byte)) : (s.withSerial l).reconfigPending = s.reconfigPending := rfl
@[simp] theorem withSerial_reconfigTable (s : State) (l : List (Option Byte)) : (s.withSerial l).reconfigTable = s.reconfigTable := rfl
@[simp] theorem withSerial_joyLast (s : State) (l : List (Option Byte)) : (s.withSerial l).joyLast = s.joyLast := rfl
@[simp] theorem withSerial_kbdLast (s : State) (l : List (Option Byte)) : (s.withSerial l).kbdLast = s.kbdLast := rfl
@[simp] theorem withSerial_rx (s : State) (l : List (Option Byte)) : (s.withSerial l).rx = s.rx := rfl
@[simp] theorem withSerial_cmdPtr (s : State) (l : List (Option Byte)) : (s.withSerial l).cmdPtr = s.cmdPtr := rfl
@[simp] theorem withSerial_txBuf (s : State) (l : List (Option Byte)) : (s.withSerial l).txBuf = s.txBuf := rfl
@[simp] theorem withSerial_proto (s : State) (l : List (Option Byte)) : (s.withSerial l).proto = s.proto := rfl
@[simp] theorem withSerial_deviceId (s : State) (l : List (Option Byte)) : (s.withSerial l).deviceId = s.deviceId := rfl
@[simp] theorem withSerial_sw (s : State) (l : List (Option Byte)) : (s.withSerial l).sw = s.sw := rfl
@[simp] theorem withSerial_sys (s : State) (l : List (Option Byte)) : (s.withSerial l).sys = s.sys := rfl
@[simp] theorem withSerial_coin (s : State) (l : List (Option Byte)) : (s.withSerial l).coin = s.coin := rfl
@[simp] theorem withSerial_lastTx (s : State) (l : List (Option Byte)) : (s.withSerial l).lastTx = s.lastTx := rfl
@[simp] theorem withSerial_ports (s : State) (l : List (Option Byte)) : (s.withSerial l).ports = { s.ports with serial := l } := rfl
@[simp] theorem withSerial_script (s : State) (l : List (Option Byte)) : (s.withSerial l).script = s.script := rfl
@[simp] theorem withSerial_tick (s : State) (l : List (Option Byte)) : (s.withSerial l).tick = s.tick := rfl
@[simp] theorem withSerial_phase (s : State) (l : List (Option Byte)) : (s.withSerial l).phase = s.phase := rfl
@[simp] theorem withSerial_ret (s : State) (l : List (Option Byte)) : (s.withSerial l).ret = s.ret := rfl
@[simp] theorem withSerial_trace (s : State) (l : List (Option Byte)) : (s.withSerial l).trace = s.trace := rfl

/-! ## `endIteration` -/

@[simp] theorem endIteration_cfg (s : State) : (endIteration s).cfg = s.cfg := rfl
@[simp] theorem endIteration_db (s : State) : (endIteration s).db = s.db := rfl
@[simp] theorem endIteration_map (s : State) : (endIteration s).map = s.map := rfl
@[simp] theorem endIteration_reconfigPending (s : State) : (endIteration s).reconfigPending = s.reconfigPending := rfl
@[simp] theorem endIteration_reconfigTable (s : State) : (endIteration s).reconfigTable = s.reconfigTable := rfl
@[simp] theorem endIteration_joyLast (s : State) : (endIteration s).joyLast = s.joyLast := rfl
@[simp] theorem endIteration_kbdLast (s : State) : (endIteration s).kbdLast = s.kbdLast := rfl
@[simp] theorem endIteration_rx (s : State) : (endIteration s).rx = s.rx := rfl
@[simp] theorem endIteration_cmdPtr (s : State) : (endIteration s).cmdPtr = s.cmdPtr := rfl
@[simp] theorem endIteration_txBuf (s : State) : (endIteration s).txBuf = s.txBuf := rfl
@[simp] theorem endIteration_proto (s : State) : (endIteration s).proto = s.proto := rfl
@[simp] theorem endIteration_deviceId (s : State) : (endIteration s).deviceId = s.deviceId := rfl
@[simp] theorem endIteration_sw (s : State) : (endIteration s).sw = s.sw := rfl
@[simp] theorem endIteration_sys (s : State) : (endIteration s).sys = s.sys := rfl
@[simp] theorem endIteration_coin (s : State) : (endIteration s).coin = s.coin := rfl
@[simp] theorem endIteration_lastTx (s : State) : (endIteration s).lastTx = s.lastTx := rfl
@[simp] theorem endIteration_ports (s : State) : (endIteration s).ports = s.ports := rfl
@[simp] theorem endIteration_script (s : State) : (endIteration s).script = s.script := rfl
@[simp] theorem endIteration_tick (s : State) : (endIteration s).tick = s.tick := rfl
@[simp] theorem endIteration_phase (s : State) : (endIteration s).phase = .boundary := rfl
@[simp] theorem endIteration_ret (s : State) : (endIteration s).ret = .unit := rfl
@[simp] theorem endIteration_trace (s : State) : (endIteration s).trace = s.trace := rfl

/-! ## `takeAct` -/

@[simp] theorem takeAct_cfg (s : State) : (takeAct s).cfg = s.cfg := rfl
@[simp] theorem takeAct_db (s : State) : (takeAct s).db = s.db := rfl
@[simp] theorem takeAct_map (s : State) : (takeAct s).map = s.map := rfl
@[simp] theorem takeAct_reconfigPending (s : State) : (takeAct s).reconfigPending = s.reconfigPending := rfl
@[simp] theorem takeAct_reconfigTable (s : State) : (takeAct s).reconfigTable = s.reconfigTable := rfl
@[simp] theorem takeAct_joyLast (s : State) : (takeAct s).joyLast = s.joyLast := rfl
@[simp] theorem takeAct_kbdLast (s : State) : (takeAct s).kbdLast = s.kbdLast := rfl
@[simp] theorem takeAct_rx (s : State) : (takeAct s).rx = s.rx := rfl
@[simp] theorem takeAct_cmdPtr (s : State) : (takeAct s).cmdPtr = s.cmdPtr := rfl
@[simp] theorem takeAct_txBuf (s : State) : (takeAct s).txBuf = s.txBuf := rfl
@[simp] theorem takeAct_proto (s : State) : (takeAct s).proto = s.proto := rfl
@[simp] theorem takeAct_deviceId (s : State) : (takeAct s).deviceId = s.deviceId := rfl
@[simp] theorem takeAct_sw (s : State) : (takeAct s).sw = s.sw := rfl
@[simp] theorem takeAct_sys (s : State) : (takeAct s).sys = s.sys := rfl
@[simp] theorem takeAct_coin (s : State) : (takeAct s).coin = s.coin := rfl
@[simp] theorem takeAct_lastTx (s : State) : (takeAct s).lastTx = s.lastTx := rfl
@[simp] theorem takeAct_ports (s : State) : (takeAct s).ports = s.ports := rfl
@[simp] theorem takeAct_script (s : State) : (takeAct s).script = s.script.tail := rfl
@[simp] theorem takeAct_tick (s : State) : (takeAct s).tick = s.tick + 1 := rfl
@[simp] theorem takeAct_phase (s : State) : (takeAct s).phase = s.phase := rfl
@[simp] theorem takeAct_ret (s : State) : (takeAct s).ret = s.ret := rfl
@[simp] theorem takeAct_trace (s : State) : (takeAct s).trace = s.trace := rfl

end Sys2Proof.Machine
end

