-- ==== Sys2Proof/Laws/Ops.lean ====
section
/-! SUPPORT. For each shared operation, what it can do, said once. -/

namespace Sys2Proof.Machine

open Sys2Proof

/-! ## Results -/

theorem onlyIn_of_mode {m : Mode} {s t : State} (h : s.cfg.mode = m) : onlyIn m s t = .next t := by
  simp [onlyIn, h]

theorem onlyIn_eq_next {m : Mode} {s t u : State} (h : onlyIn m s t = .next u) :
    s.cfg.mode = m ∧ u = t := by
  unfold onlyIn at h
  split at h
  · exact ⟨‹_›, (Host.Outcome.next.inj h).symm⟩
  · cases h

@[simp] theorem andThen_next (s : State) (k : State → Result) : andThen (.next s) k = k s := rfl

theorem andThen_eq_next {r : Result} {k : State → Result} {t : State} (h : andThen r k = .next t) :
    ∃ s, r = .next s ∧ k s = .next t := by
  cases r with
  | next s => exact ⟨s, rfl, h⟩
  | fault f => cases f
  | refused e => cases h

/-! ## Answers -/

theorem endDispatch_eq (s : State) :
    endDispatch s = { s with
      lastTx := ⟨true, s.txBuf⟩
      trace := s.trace ++ [.serialSend (wireFrame s.cfg s.cfg.masterAddr s.txBuf)]
      phase := .boundary
      ret := .unit } := rfl

theorem raiseUnsupported_eq (op : Byte) (s : State) :
    raiseUnsupported op s = { s with
      txBuf := [s.cfg.statusUnsupported]
      lastTx := ⟨true, [s.cfg.statusUnsupported]⟩
      trace := s.trace ++ [.condition (.unsupportedCommand op),
        .serialSend (wireFrame s.cfg s.cfg.masterAddr [s.cfg.statusUnsupported])]
      phase := .boundary
      ret := .unit } := by
  simp [raiseUnsupported, endDispatch_eq, State.emit, State.withTx]

theorem raiseChecksumError_eq (s : State) :
    raiseChecksumError s = { s with
      rx := { s.rx with state := .waitSync }
      trace := s.trace ++ [.condition .checksumError] } := rfl

/-- A response either fits, and is appended while `cmd_ptr` moves on, or ends the dispatch as an
unsupported command. -/
theorem respond_cases (op : Byte) (size : Nat) (body : List Byte) (s : State) :
    (s.txBuf.length + (responseOf s.cfg body).length ≤ s.cfg.jvsMaxPayload
      ∧ respond op size body s
        = { s with txBuf := s.txBuf ++ responseOf s.cfg body, cmdPtr := s.cmdPtr + size })
    ∨ (s.cfg.jvsMaxPayload < s.txBuf.length + (responseOf s.cfg body).length
      ∧ respond op size body s = raiseUnsupported op s) := by
  unfold respond
  split
  · exact .inr ⟨‹_›, rfl⟩
  · exact .inl ⟨by omega, rfl⟩

/-- A dispatch starts a walk of an addressed frame, and is over for any other. -/
theorem startDispatch_cases (s : State) :
    (s.isAddressed = true
      ∧ startDispatch s
        = { s with txBuf := [s.cfg.statusSuccess], cmdPtr := 0, phase := .walk })
    ∨ (s.isAddressed = false ∧ startDispatch s = { s with phase := .boundary, ret := .unit }) := by
  unfold startDispatch
  cases h : s.isAddressed
  · exact .inr ⟨rfl, rfl⟩
  · exact .inl ⟨rfl, rfl⟩

theorem resend_eq (s : State) :
    resend s = { s with
      trace := s.trace ++
        (if s.lastTx.valid then [.serialSend (wireFrame s.cfg s.cfg.masterAddr s.lastTx.bytes)] else [])
      phase := .boundary
      ret := .unit } := by
  unfold resend
  cases s.lastTx.valid <;> simp [endIteration, sendToMaster, State.withPhase, State.withRet, State.emit]

/-- What `execCommand` and `exec` do with a command is one thing. -/
theorem exec_toInstr (cmd : Command) (s : State) : exec cmd.toInstr s = execCommand cmd s := by
  cases cmd <;> rfl

/-! ## Change detection -/

/-- The four outcomes of `send_if_changed` (46_pipeline.md R264). -/
theorem sendIfChanged_cases (l : Last) (configured ok : Bool) (ch : Channel) (r : List Byte) :
    (l.valid = true ∧ l.bytes = r ∧ sendIfChanged l configured ok ch r = (l, []))
    ∨ (configured = false ∧ sendIfChanged l configured ok ch r = (l, []))
    ∨ (¬ (l.valid = true ∧ l.bytes = r) ∧ configured = true ∧ ok = true
        ∧ sendIfChanged l configured ok ch r = (⟨true, r⟩, [.transportSend ch r true]))
    ∨ (¬ (l.valid = true ∧ l.bytes = r) ∧ configured = true ∧ ok = false
        ∧ sendIfChanged l configured ok ch r = (l, [.transportSend ch r false])) := by
  by_cases h : l.valid = true ∧ l.bytes = r
  · exact .inl ⟨h.1, h.2, by simp [sendIfChanged, Last.differs, h]⟩
  · have hd : l.differs r = true := by
      unfold Last.differs
      cases hv : l.valid <;> simp_all
    cases configured
    · exact .inr (.inl ⟨rfl, by simp [sendIfChanged]⟩)
    · cases ok
      · exact .inr (.inr (.inr ⟨h, rfl, rfl, by simp [sendIfChanged, hd]⟩))
      · exact .inr (.inr (.inl ⟨h, rfl, rfl, by simp [sendIfChanged, hd]⟩))

/-! ## Timer arithmetic -/

/-- The modular difference of two `TS_WIDTH`-bit timestamps without integers: across at most one
wrap (40_scan.md R123). -/
theorem elapsed_eq {w now last : Nat} (hn : now < 2 ^ w) (hl : last < 2 ^ w) :
    elapsed w now last = if last ≤ now then now - last else now + 2 ^ w - last := by
  unfold elapsed
  generalize 2 ^ w = m at *
  split
  · rw [Int.emod_eq_of_lt (by omega) (by omega)]
    omega
  · rw [show (now : Int) - last = ((now + m - last : Nat) : Int) + (m : Int) * (-1) by omega,
      Int.add_mul_emod_self_left, Int.emod_eq_of_lt (by omega) (by omega)]
    omega

theorem timestamp_of_lt {c : Config} {now : Nat} (h : now < 2 ^ c.tsWidth) : timestamp c now = now :=
  Nat.mod_eq_of_lt h

/-! ## Scan -/

@[simp] theorem scanDb_length (c : Config) (high : List Nat) (now : Nat) (db : List Debounce) :
    (scanDb c high now db).length = c.inputs.length := by
  simp [scanDb]

/-- Every input of a scan on its own. -/
theorem scanDb_getElem? {c : Config} {db : List Debounce} {i : Nat} {inp : Input} {d : Debounce}
    (high : List Nat) (now : Nat) (hi : c.inputs[i]? = some inp) (hd : db[i]? = some d) :
    (scanDb c high now db)[i]? = some (debounce c now (rawPressed inp high i) d) := by
  simp [scanDb, List.getElem?_zipIdx, hi, hd, List.getD]

theorem execScan_eq (now : Nat) (s : State) :
    exec (.scan now) s = .next { s with
      db := scanDb s.cfg s.ports.high (timestamp s.cfg now) s.db
      trace := s.trace ++ scanReads s.cfg s.ports.high
      ret := .vector ((scanDb s.cfg s.ports.high (timestamp s.cfg now) s.db).map
        (fun d => d.stable)) } := rfl

/-! ## Commands of a frame -/

theorem oneArg_eq_ok {op : Byte} {k : Byte → Command} {l rest : List Byte} {cmd : Command}
    (h : oneArg op k l = .ok (cmd, rest)) : ∃ a, l = a :: rest ∧ cmd = k a := by
  unfold oneArg at h
  split at h
  · simp only [Except.ok.injEq, Prod.mk.injEq] at h
    exact ⟨_, by rw [h.2], h.1.symm⟩
  · cases h

theorem twoArgs_eq_ok {op : Byte} {k : Byte → Byte → Command} {l rest : List Byte} {cmd : Command}
    (h : twoArgs op k l = .ok (cmd, rest)) : ∃ a b, l = a :: b :: rest ∧ cmd = k a b := by
  unfold twoArgs at h
  split at h
  · simp only [Except.ok.injEq, Prod.mk.injEq] at h
    exact ⟨_, _, by rw [h.2], h.1.symm⟩
  · cases h

/-- A decoded command takes as many bytes as its encoding has. -/
theorem decodeCommand_length {c : Config} {bytes rest : List Byte} {cmd : Command}
    (h : decodeCommand c bytes = .ok (cmd, rest)) :
    bytes.length = rest.length + (encodeCommand c cmd).length := by
  unfold decodeCommand at h
  repeat' split at h
  all_goals first
    | (obtain ⟨a, hl, rfl⟩ := oneArg_eq_ok h; simp [hl, encodeCommand])
    | (obtain ⟨a, b, hl, rfl⟩ := twoArgs_eq_ok h; simp [hl, encodeCommand])
    | (simp only [Except.ok.injEq, Prod.mk.injEq] at h
       obtain ⟨rfl, rfl⟩ := h
       simp [encodeCommand])
    | cases h

theorem encodeCommand_length_pos (c : Config) (cmd : Command) : 1 ≤ (encodeCommand c cmd).length := by
  cases cmd <;> simp [encodeCommand]

/-- A command of the ten found at `cmd_ptr` lies whole before `rx_count`. -/
theorem commandAt_le {s : State} (h : ∀ x, commandAt s ≠ .unsupported x) :
    s.cmdPtr + (encodeCommand s.cfg (commandAt s)).length ≤ s.rx.count := by
  unfold commandAt at *
  split
  · rename_i cmd rest e
    have h1 := decodeCommand_length e
    have h2 : (pendingBytes s).length ≤ s.rx.count - s.cmdPtr := by
      simp only [pendingBytes, List.length_drop, List.length_take]
      omega
    have h3 := encodeCommand_length_pos s.cfg cmd
    omega
  · rename_i e
    rw [e] at h
    exact absurd rfl (h _)

/-! ## The switches from the stable vector -/

/-- `jvs_update_switches` writes `SW` and nothing else. -/
theorem updateSwitches_frame (v : List Bool) (s : State) :
    ∃ sw, updateSwitches v s = { s with sw := sw } := by
  unfold updateSwitches
  generalize s.cfg.inputs.zip v = l
  induction l generalizing s with
  | nil => exact ⟨_, rfl⟩
  | cons e l ih =>
    obtain ⟨sw, h⟩ := ih (glueInput s e)
    refine ⟨sw, ?_⟩
    rw [List.foldl_cons, h]
    unfold glueInput
    split <;> rfl

/-- What `pollStart` leaves unchanged, besides `DB`, `SW`, the phase and the record. -/
theorem pollStart_eq (now : Nat) (s : State) :
    ∃ sw, pollStart now s = { s with
      db := scanDb s.cfg s.ports.high (timestamp s.cfg now) s.db
      sw := sw
      phase := .receive
      trace := s.trace ++ scanReads s.cfg s.ports.high } := by
  obtain ⟨sw, h⟩ := updateSwitches_frame (stableVector (scanned now s)) (scanned now s)
  refine ⟨sw, ?_⟩
  show (updateSwitches (stableVector (scanned now s)) (scanned now s)).withPhase .receive = _
  rw [h]
  rfl

/-! ## Parameters -/

/-- The six quantities the source fixes, in a configuration of this hardware (00_scope.md R6). -/
theorem wf_fixed {c : Config} (h : c.wf = true) :
    c.maxPins = 17 ∧ c.buttonIndexMax = 29 ∧ c.jvsSync = 0xE0 ∧ c.jvsEscape = 0xD0
      ∧ c.jvsMaxPayload = 252 ∧ c.jvsCoinMax = 16383 := by
  simp only [Config.wf, Config.fixedOk, Bool.and_eq_true, beq_iff_eq] at h
  obtain ⟨⟨⟨⟨⟨⟨⟨⟨⟨⟨⟨⟨⟨h1, h2⟩, h3⟩, h4⟩, h5⟩, h6⟩, _⟩, _⟩, _⟩, _⟩, _⟩, _⟩, _⟩, _⟩ := h
  exact ⟨h1, h2, h3, h4, h5, h6⟩

/-! ## Reception -/

theorem rxByte_sync (c : Config) (r : Rx) : rxByte c c.jvsSync r = (rxSync r, .none) := by
  simp [rxByte]

theorem rxByte_waitSync {c : Config} {w : Byte} {r : Rx} (hw : w ≠ c.jvsSync)
    (h : r.state = .waitSync) : rxByte c w r = (r, .none) := by
  simp [rxByte, hw, h]

theorem rxByte_escape {c : Config} {r : Rx} (hc : c.jvsEscape ≠ c.jvsSync) (h : r.state ≠ .waitSync)
    (he : r.escape = false) : rxByte c c.jvsEscape r = ({ r with escape := true }, .none) := by
  simp [rxByte, Rx.isPrefix, h, he, hc]

theorem rxByte_armed {c : Config} {w : Byte} {r : Rx} (hw : w ≠ c.jvsSync) (h : r.state ≠ .waitSync)
    (he : r.escape = true) : rxByte c w r = rxOrdinary c (w + 1) { r with escape := false } := by
  simp [rxByte, Rx.isPrefix, hw, h, he, unescape]

theorem rxByte_plain {c : Config} {w : Byte} {r : Rx} (hw : w ≠ c.jvsSync) (hw' : w ≠ c.jvsEscape)
    (h : r.state ≠ .waitSync) (he : r.escape = false) : rxByte c w r = rxOrdinary c w r := by
  have : { r with escape := false } = r := by cases r; simp_all
  simp [rxByte, Rx.isPrefix, hw, hw', h, he, this]

/-- What reception of a byte can do to the state: only the receive registers, the returned value
and, with a checksum failure, the record change. -/
theorem receiveByte_eq (w : Byte) (s : State) :
    receiveByte w s = { s with
      rx := if (rxByte s.cfg w s.rx).2 = .checksumError
        then { (rxByte s.cfg w s.rx).1 with state := .waitSync } else (rxByte s.cfg w s.rx).1
      ret := .rx (decide ((rxByte s.cfg w s.rx).2 = .complete))
      trace := s.trace ++
        (if (rxByte s.cfg w s.rx).2 = .checksumError then [.condition .checksumError] else []) } := by
  unfold receiveByte
  generalize rxByte s.cfg w s.rx = p
  obtain ⟨r, res⟩ := p
  cases res <;> simp [State.withRx, State.withRet, State.emit, raiseChecksumError]

/-! ## The receive loop -/

/-- Whatever the wire symbol is, its operation is one of the three of reception. -/
theorem wireSymbol_cases (c : Config) (armed : Bool) (b : Byte) (after : Option Byte) :
    (b = c.jvsSync ∧ wireSymbol c armed b after = (.sync, 1))
    ∨ (∃ w, armed = false ∧ b = c.jvsEscape ∧ b ≠ c.jvsSync ∧ after = some w ∧ w ≠ c.jvsSync
        ∧ wireSymbol c armed b after = (.escape w, 2))
    ∨ (b ≠ c.jvsSync ∧ wireSymbol c armed b after = (.jvsRxByte b, 1)) := by
  by_cases hb : b = c.jvsSync
  · refine .inl ⟨hb, ?_⟩
    simp [wireSymbol, decodeWire, hb]
  · cases armed
    · by_cases he : b = c.jvsEscape
      · cases after with
        | none => exact .inr (.inr ⟨hb, by simp [wireSymbol, decodeWire, he ▸ hb, he]⟩)
        | some w =>
          by_cases hw : w = c.jvsSync
          · exact .inr (.inr ⟨hb, by simp [wireSymbol, decodeWire, hw, he ▸ hb, he]⟩)
          · refine .inr (.inl ⟨w, rfl, he, hb, rfl, hw, ?_⟩)
            simp [wireSymbol, decodeWire, hw, he ▸ hb, he]
      · exact .inr (.inr ⟨hb, by simp [wireSymbol, decodeWire, hb, he]⟩)
    · exact .inr (.inr ⟨hb, by simp [wireSymbol, hb]⟩)

/-! ## The configuration agent -/

/-- A request goes on, and is then pending, or is refused: an incomplete table, or a change of a table
that is pending already. -/
theorem requestReconfig_cases (table : Table) (s : State) :
    (tableOk s.cfg table = true ∧ (s.reconfigPending = true → table = s.reconfigTable)
      ∧ requestReconfig table s
        = .next { s with reconfigPending := true, reconfigTable := table })
    ∨ (tableOk s.cfg table = true ∧ s.reconfigPending = true ∧ table ≠ s.reconfigTable
      ∧ requestReconfig table s = .refused .pendingTableChanged)
    ∨ (tableOk s.cfg table = false ∧ requestReconfig table s = .refused .incompleteTable) := by
  unfold requestReconfig
  split
  · split
    · exact .inr (.inl ⟨‹_›, by tauto, by tauto, rfl⟩)
    · exact .inl ⟨‹_›, by tauto, rfl⟩
  · exact .inr (.inr ⟨by simp_all, rfl⟩)

/-! ## The walk -/

theorem walkFrame_zero (s : State) :
    walkFrame 0 s = .next (if s.phase = .walk then endDispatch s else s) := rfl

theorem walkFrame_done {n : Nat} {s : State} (h : s.phase ≠ .walk) : walkFrame n s = .next s := by
  cases n <;> simp [walkFrame, h]

theorem walkFrame_end {n : Nat} {s : State} (h : s.phase = .walk) (hp : s.rx.count ≤ s.cmdPtr) :
    walkFrame n s = .next (endDispatch s) := by
  cases n <;> simp [walkFrame, h, Nat.not_lt.mpr hp]

theorem walkFrame_command {n : Nat} {s : State} (h : s.phase = .walk) (hp : s.cmdPtr < s.rx.count) :
    walkFrame (n + 1) s = andThen (execCommand (commandAt s) s) (walkFrame n) := by
  simp [walkFrame, h, hp]

/-- What a command of a frame can do in a `Jvs` build: it appends its response and moves `cmd_ptr`,
perhaps writing the protocol registers, or it ends the dispatch. -/
theorem execCommand_cases {cmd : Command} {s t : State} (h : execCommand cmd s = .next t) :
    (∃ p id size body, 1 ≤ size ∧ s.txBuf.length + body.length ≤ s.cfg.jvsMaxPayload
      ∧ t = { s with
              proto := p, deviceId := id, txBuf := s.txBuf ++ body, cmdPtr := s.cmdPtr + size })
    ∨ (∃ p id op, t = raiseUnsupported op { s with proto := p, deviceId := id })
    ∨ t = resend s := by
  have key : ∀ (op : Byte) (size : Nat) (body : List Byte) (p : ProtoState) (id : Byte), 1 ≤ size →
      t = respond op size body { s with proto := p, deviceId := id } →
      (∃ p id size body, 1 ≤ size ∧ s.txBuf.length + body.length ≤ s.cfg.jvsMaxPayload
        ∧ t = { s with
                proto := p, deviceId := id, txBuf := s.txBuf ++ body, cmdPtr := s.cmdPtr + size })
      ∨ (∃ p id op, t = raiseUnsupported op { s with proto := p, deviceId := id })
      ∨ t = resend s := by
    intro op size body p id hs ht
    rcases respond_cases op size body { s with proto := p, deviceId := id } with ⟨hl, e⟩ | ⟨_, e⟩
    · exact .inl ⟨p, id, size, _, hs, hl, ht.trans e⟩
    · exact .inr (.inl ⟨p, id, op, ht.trans e⟩)
  cases cmd with
  | reset a1 => exact key _ _ _ _ _ (by decide) (onlyIn_eq_next h).2
  | assignAddr a1 => exact key _ _ _ _ _ (by decide) (onlyIn_eq_next h).2
  | ioIdent => exact key _ 1 _ s.proto s.deviceId (by decide) (onlyIn_eq_next h).2
  | cmdRev => exact key _ 1 _ s.proto s.deviceId (by decide) (onlyIn_eq_next h).2
  | jvsRev => exact key _ 1 _ s.proto s.deviceId (by decide) (onlyIn_eq_next h).2
  | commVer => exact key _ 1 _ s.proto s.deviceId (by decide) (onlyIn_eq_next h).2
  | featChk => exact key _ 1 _ s.proto s.deviceId (by decide) (onlyIn_eq_next h).2
  | readSwitches a1 a2 => exact key _ 3 _ s.proto s.deviceId (by decide) (onlyIn_eq_next h).2
  | readCoins a1 => exact key _ 2 _ s.proto s.deviceId (by decide) (onlyIn_eq_next h).2
  | retransmit => exact .inr (.inr (onlyIn_eq_next h).2)
  | unsupported x =>
    exact .inr (.inl ⟨s.proto, s.deviceId, x, (onlyIn_eq_next h).2⟩)

/-- In a `Jvs` build every command of a frame answers a next state. -/
theorem execCommand_next (cmd : Command) {s : State} (h : s.cfg.mode = .jvs) :
    ∃ t, execCommand cmd s = .next t := by
  cases cmd <;> exact ⟨_, onlyIn_of_mode h⟩

end Sys2Proof.Machine
end

