-- ==== Sys2Proof/Laws/PerInstr.lean ====
section
/-! SUPPORT. A statement about every instruction, one lemma per constructor of `Instr`. -/

namespace Sys2Proof.Laws.EncodeSize

open Sys2Proof

/-- How many bytes an instruction is on the line: the command sizes of 30_encoding.md R85, one byte
for `SYNC` and two for an `ESCAPE` pair (R102); a port operation has no encoding (R100). -/
def size : Instr → Option Nat
  | .scan _ => none
  | .map _ => none
  | .encJoy _ _ => none
  | .encKbd _ => none
  | .poll _ => none
  | .reconfig _ => none
  | .jvsRxByte _ => none
  | .jvsDispatch => none
  | .jvsTxFrame _ _ => none
  | .setSwitch _ _ _ => none
  | .incCoin _ => none
  | .reset _ => some 2
  | .assignAddr _ => some 2
  | .ioIdent => some 1
  | .cmdRev => some 1
  | .jvsRev => some 1
  | .commVer => some 1
  | .featChk => some 1
  | .readSwitches _ _ => some 3
  | .readCoins _ => some 2
  | .retransmit => some 1
  | .unsupported _ => some 1
  | .sync => some 1
  | .escape _ => some 2

/-- The encoder answers exactly that many bytes, whatever the parameters and operands. -/
def Statement (i : Instr) : Prop := ∀ c : Config, (encode c i).map List.length = size i

theorem scan (now : Nat) : Statement (.scan now) := fun _ => rfl
theorem map (v : List Bool) : Statement (.map v) := fun _ => rfl
theorem encJoy (act : ActionSet) (p : Nat) : Statement (.encJoy act p) := fun _ => rfl
theorem encKbd (act : ActionSet) : Statement (.encKbd act) := fun _ => rfl
theorem poll (now : Nat) : Statement (.poll now) := fun _ => rfl
theorem reconfig (table : Table) : Statement (.reconfig table) := fun _ => rfl
theorem jvsRxByte (w : Byte) : Statement (.jvsRxByte w) := fun _ => rfl
theorem jvsDispatch : Statement .jvsDispatch := fun _ => rfl
theorem jvsTxFrame (dest : Byte) (data : List Byte) : Statement (.jvsTxFrame dest data) := fun _ => rfl
theorem setSwitch (player button : Nat) (pressed : Bool) : Statement (.setSwitch player button pressed) := fun _ => rfl
theorem incCoin (slot : Nat) : Statement (.incCoin slot) := fun _ => rfl
theorem reset (a1 : Byte) : Statement (.reset a1) := fun _ => rfl
theorem assignAddr (a1 : Byte) : Statement (.assignAddr a1) := fun _ => rfl
theorem ioIdent : Statement .ioIdent := fun _ => rfl
theorem cmdRev : Statement .cmdRev := fun _ => rfl
theorem jvsRev : Statement .jvsRev := fun _ => rfl
theorem commVer : Statement .commVer := fun _ => rfl
theorem featChk : Statement .featChk := fun _ => rfl
theorem readSwitches (a1 a2 : Byte) : Statement (.readSwitches a1 a2) := fun _ => rfl
theorem readCoins (a1 : Byte) : Statement (.readCoins a1) := fun _ => rfl
theorem retransmit : Statement .retransmit := fun _ => rfl
theorem unsupported (x : Byte) : Statement (.unsupported x) := fun _ => rfl
theorem sync : Statement .sync := fun _ => rfl
theorem escape (w : Byte) : Statement (.escape w) := fun _ => rfl

end Sys2Proof.Laws.EncodeSize
end

