-- ==== Sys2Proof/Tests/Slice0.lean ====
section
/-! SUPPORT. Tests. Expected values are the spec's own vectors (95_test_vectors.md, named in each
docstring) or are written out from the cited rule. Then, for every obligation with hypotheses, a
concrete state and operands that meet all of them. -/

namespace Sys2Proof.Tests

open Sys2Proof Sys2Proof.Machine

/-! ## Helpers -/

/-- A field of the next state; `none` for a stop. -/
def after {α : Type} (r : Result) (f : State → α) : Option α :=
  match r with
  | .next s => some (f s)
  | .fault _ => none
  | .refused _ => none

/-- Why a result is refused. -/
def reason (r : Result) : Option Refusal :=
  match r with
  | .next _ => none
  | .fault _ => none
  | .refused e => some e

/-- A table row of 17 entries from its first ones. -/
def row (l : List Func) : List Func := l ++ List.replicate (17 - l.length) .disabled

/-- The start of the command vectors: `Addressed`, id 01, one packet recorded (95 section 2.6). -/
def idle : State :=
  { State.reset with proto := .addressed, deviceId := 0x01, lastTx := ⟨true, [0x01]⟩ }

/-- A frame received whole for a destination. -/
def framed (dest : Byte) (data : List Byte) (s : State) : State :=
  { s with rx := { s.rx with
      dest := dest, count := data.length, need := data.length
      buf := data ++ List.replicate (252 - data.length) 0x00 } }

/-- In the walk of a frame whose packet so far is the status byte. -/
def walking (data : List Byte) (s : State) : State :=
  { framed 0x01 data s with phase := .walk, cmdPtr := 0, txBuf := [0x01] }

/-- Receiving, with bytes on the line. -/
def receiving (wire : List Byte) (s : State) : State :=
  { s with phase := .receive, ports := { s.ports with serial := wire.map some } }

/-- At the boundary with one act to come. -/
def acting (a : Act) (s : State) : State := { s with script := [a] }

/-- With the all-disabled table pending. -/
def pending (s : State) : State := { s with reconfigPending := true }

/-- The decoder inside a frame, in a given state of 44_jvs_framing.md R190. -/
def decoding (st : RxState) (escape : Bool) (sum : Byte) (s : State) : State :=
  { s with rx := { s.rx with state := st, escape := escape, sum := sum, need := 1 } }

/-- Inputs 0 to 2: player 1 slot 0 on an active-low pin, player 1 slot 1, player 2 slot 0. -/
def threeInputs : List Input := [⟨1, 0, true, 7⟩, ⟨1, 1, false, 8⟩, ⟨2, 0, false, 9⟩]

def joyCfg : Config := { Config.default with mode := .joystick, inputs := threeInputs }
def kbdCfg : Config := { Config.default with mode := .keyboard, inputs := threeInputs }
def bitmapCfg : Config := { kbdCfg with kbdPolicy := .bitmap 104 }
def glueCfg : Config :=
  { Config.default with inputs := threeInputs, jvsSwitchOf := [(.button 3, 3), (.button 15, 15)] }

/-- The transport is configured and takes every report. -/
def openPorts (high : List Nat) : Ports := ⟨high, ⟨true, true, true, true⟩, []⟩

/-- One turn of the loop, with the bytes of the line presented with it. -/
def turn (now : Nat) (high : List Nat) (wire : List Byte) : Act :=
  .poll ⟨now, high, ⟨true, true, true, true⟩, wire.map some⟩

/-- A build at reset with a table and debounce registers of its own. -/
def booted (c : Config) (t : Table) (db : List Debounce) : State :=
  { State.resetWith c with map := t, db := db, ports := openPorts [0] }

def joyTable : Table := [row [.button 0, .axisLeft], row [.button 3]]
def kbdTable : Table := [row [.keyCode 0x04, .keyCode 0xE1], row [.keyCode 0x04]]
def glueTable : Table := [row [.button 3, .button 3], row [.button 15]]

def joy : State := booted joyCfg joyTable (List.replicate 3 ⟨false, 100⟩)
def kbd : State := booted kbdCfg kbdTable (List.replicate 3 ⟨false, 100⟩)
def glue : State := booted glueCfg glueTable (List.replicate 3 ⟨false, 100⟩)

/-- One player's actions from its pressed functions. -/
def actions (fs : List Func) (keys : List Byte) : ActionSet :=
  ⟨[playerActions fs, playerActions []], keys⟩

/-! ## Well-formedness: one ill-formed term for each check (00_scope.md R6) -/

theorem test_wf_default : Config.default.wf = true := by decide
theorem test_wf_builds :
    joyCfg.wf = true ∧ kbdCfg.wf = true ∧ bitmapCfg.wf = true ∧ glueCfg.wf = true := by decide
/-- The six values that the source itself fixes. -/
theorem test_illformed_fixed_values :
    Config.wf { Config.default with maxPins := 16 } = false
    ∧ Config.wf { Config.default with buttonIndexMax := 30 } = false
    ∧ Config.wf { Config.default with jvsSync := 0xE1 } = false
    ∧ Config.wf { Config.default with jvsEscape := 0xD1 } = false
    ∧ Config.wf { Config.default with jvsMaxPayload := 253 } = false
    ∧ Config.wf { Config.default with jvsCoinMax := 16384 } = false := by decide
theorem test_illformed_players : Config.wf { Config.default with nPlayers := 3 } = false := by decide
theorem test_illformed_joystick_one_player :
    Config.wf { Config.default with mode := .joystick, nPlayers := 1 } = false := by decide
theorem test_illformed_too_many_inputs :
    Config.inputsOk { Config.default with inputs := List.replicate 35 ⟨1, 0, true, 0⟩ } = false := by
  decide
theorem test_illformed_input_player :
    Config.wf { Config.default with inputs := [⟨0, 0, true, 0⟩] } = false := by decide
theorem test_illformed_input_slot :
    Config.wf { Config.default with inputs := [⟨1, 17, true, 0⟩] } = false := by decide
theorem test_illformed_inputs_collide :
    Config.wf { Config.default with inputs := [⟨1, 4, true, 0⟩, ⟨1, 4, false, 1⟩] } = false := by decide
theorem test_illformed_button_count : Config.wf { Config.default with joyButtonCount := 17 } = false := by
  decide
theorem test_illformed_slots : Config.wf { Config.default with kbdPolicy := .slot 7 } = false := by
  decide
theorem test_illformed_bitmap : Config.wf { Config.default with kbdPolicy := .bitmap 100 } = false := by
  decide
theorem test_illformed_command_bytes :
    Config.wf { Config.default with ops := { JvsOps.default with retransmit := 0xF0 } } = false := by
  decide
theorem test_illformed_status : Config.wf { Config.default with statusUnsupported := 0x01 } = false := by
  decide
theorem test_illformed_id_end : Config.wf { Config.default with idString := [0x48] } = false := by decide
theorem test_illformed_id_length : idStringOk (List.replicate 101 0x00) = false := by decide
theorem test_illformed_switch_index :
    Config.wf { Config.default with jvsSwitchOf := [(.axisUp, 16)] } = false := by decide
theorem test_illformed_table :
    tableOk Config.default [row []] = false
    ∧ tableOk Config.default [row [], [.disabled]] = false
    ∧ tableOk Config.default [row [], row [.button 30]] = false
    ∧ tableOk Config.default [row [], row [.button 29]] = true := by decide
theorem test_illformed_operands :
    Instr.wf Config.default (.scan (2 ^ 32)) = false
    ∧ Instr.wf Config.default (.poll (2 ^ 32)) = false
    ∧ Instr.wf Config.default (.map [true]) = false
    ∧ Instr.wf Config.default (.encJoy (actions [] []) 3) = false
    ∧ Instr.wf Config.default (.encJoy ⟨[], []⟩ 1) = false
    ∧ Instr.wf Config.default (.encKbd ⟨[], []⟩) = false
    ∧ Instr.wf Config.default (.reconfig []) = false
    ∧ Instr.wf Config.default (.unsupported 0x2F) = false
    ∧ Instr.wf Config.default (.escape 0xE0) = false := by decide
theorem test_illformed_data_length (data : List Byte) (h : data.length = 253) :
    Instr.wf Config.default (.jvsTxFrame 0x00 data) = false := by
  simp [Instr.wf, Config.default, h]

/-! ## Decoding: words written out from 30_encoding.md R85 (command bytes, defaults), R84 and R102 -/

theorem test_decode_reset : decodeTableWord 16 0b1111000011011001 = some (.reset 0xD9) := by decide
theorem test_decode_assignAddr : decodeTableWord 16 0b1111000100000001 = some (.assignAddr 0x01) := by
  decide
theorem test_decode_ioIdent : decodeTableWord 8 0b00010000 = some .ioIdent := by decide
theorem test_decode_cmdRev : decodeTableWord 8 0b00010001 = some .cmdRev := by decide
theorem test_decode_jvsRev : decodeTableWord 8 0b00010010 = some .jvsRev := by decide
theorem test_decode_commVer : decodeTableWord 8 0b00010011 = some .commVer := by decide
theorem test_decode_featChk : decodeTableWord 8 0b00010100 = some .featChk := by decide
theorem test_decode_readSwitches :
    decodeTableWord 24 0b001000000000000100000010 = some (.readSwitches 0x01 0x02) := by decide
theorem test_decode_readCoins : decodeTableWord 16 0b0010000101111101 = some (.readCoins 0x7D) := by
  decide
theorem test_decode_retransmit : decodeTableWord 8 0b00101111 = some .retransmit := by decide
theorem test_decode_unsupported : decodeTableWord 8 0b00110010 = some (.unsupported 0x32) := by decide
theorem test_decode_sync : decodeTableWord 8 0b11100000 = some .sync := by decide
theorem test_decode_escape : decodeTableWord 16 0b1101000011001111 = some (.escape 0xCF) := by decide
theorem test_decode_rejects :
    decode Config.default .data [] = .error .noByte
    ∧ decode Config.default .data [0x20, 0x01] = .error (.incomplete 0x20)
    ∧ decode Config.default .wire [0xD0] = .error (.incomplete 0xD0)
    ∧ decode Config.default .wire [0xD0, 0xE0] = .error .syncAfterEscape := by decide
/-- The wire bytes of an ordinary data byte, read with no escape armed. -/
theorem test_decode_wire_ordinary :
    decode Config.default .wire [0x55, 0xE0] = .ok (.jvsRxByte 0x55, [0xE0]) := by decide
/-- A placed word is what the very next step runs. -/
theorem test_placed_word_runs :
    after (step (State.reset.withFetchWord 16 0xF101)) (fun t => (t.proto, t.deviceId))
      = some (.addressed, 0x01)
    ∧ after (step (State.reset.withFetchWord 8 0xE0)) (fun t => t.rx.state)
      = some .getDestination := by decide

/-! ## Steps -/

/-- V-D5: commit across the counter's wrap. -/
theorem test_scan_wrap :
    after (exec (.scan 3) { booted joyCfg joyTable (List.replicate 3 ⟨false, 4294967294⟩) with
      ports := openPorts [1] }) (fun t => t.db)
      = some [⟨true, 3⟩, ⟨true, 3⟩, ⟨false, 3⟩] := by decide
/-- V-D12 and V-D1: polarity, and a hold below the threshold. -/
theorem test_scan_polarity_and_hold :
    after (exec (.scan 104) { joy with db := [⟨false, 0⟩, ⟨false, 100⟩, ⟨true, 0⟩], ports := openPorts [1, 2] })
      (fun t => (t.db, t.ret))
      = some ([⟨true, 104⟩, ⟨false, 100⟩, ⟨true, 104⟩], .vector [true, false, true]) := by decide
/-- V-M13: key codes in input order, duplicates kept. -/
theorem test_map_keyseq :
    (mapActions kbdCfg kbdTable [true, true, true]).keyseq = [0x04, 0xE1, 0x04] := by decide
/-- V-M8 and V-M6: opposing directions cancel; up and left is `Min`, `Min`. -/
theorem test_map_axes :
    ((playerActions [.axisLeft, .axisRight, .button 0]).x = .center)
    ∧ ((playerActions [.axisLeft, .axisRight, .button 0]).buttons = 1)
    ∧ ((playerActions [.axisUp, .axisLeft]).x = .min)
    ∧ ((playerActions [.axisUp, .axisLeft]).y = .min) := by decide
/-- V-Y10: down, right, `Button(7)`, `Button(8)`. -/
theorem test_encJoy_bytes :
    after (exec (.encJoy (actions [.axisDown, .axisRight, .button 7, .button 8] []) 1) joy)
      (fun t => t.ret) = some (.report [0x01, 0x7F, 0x7F, 0x80, 0x01]) := by decide
/-- V-Y13: masking at 16 buttons. -/
theorem test_encJoy_mask :
    joyReport { joyCfg with joyButtonCount := 16 }
      (playerActions [.button 13, .button 15, .button 16, .button 29, .button 12]) 1
      = [0x01, 0x00, 0x00, 0x00, 0xB0] := by decide
/-- V-K11 with V-K4: modifiers, and the seventh key dropped. -/
theorem test_encKbd_slots :
    after (exec (.encKbd (actions [.keyCode 0xE1, .keyCode 0xE7]
        [0xE1, 0x04, 0x05, 0x04, 0x06, 0x07, 0x08, 0x09, 0x0A, 0xE7])) kbd) (fun t => t.ret)
      = some (.report [0x82, 0x00, 0x04, 0x05, 0x06, 0x07, 0x08, 0x09]) := by decide
/-- V-K17 and V-K15: 0x67 is the last bit, 0x68 has none. -/
theorem test_encKbd_bitmap :
    kbdReport bitmapCfg (actions [.keyCode 0x67, .keyCode 0x68, .keyCode 0x04] [])
      = [0x00, 0x00, 0x10, 0, 0, 0, 0, 0, 0, 0, 0, 0, 0, 0, 0x80] := by decide
/-- P1 iteration 1 shape: first reports of both players go out, player 1 first. -/
theorem test_poll_joystick :
    after (exec (.poll 1000) { joy with ports := openPorts [0] }) (fun t => reportsOffered t.trace)
      = some [(.joy 1, [0x01, 0x00, 0x00, 0x00, 0x00], true),
              (.joy 2, [0x02, 0x00, 0x00, 0x00, 0x00], true)] := by decide
/-- P2 iteration 3: the source's `READ_SWITCHES(players=1, bytes=1)`. -/
theorem test_poll_jvs :
    after (exec (.poll 0) (receiving [0xE0, 0x01, 0x04, 0x20, 0x01, 0x01, 0x27] idle))
      (fun t => (framesSent t.trace, t.lastTx.bytes, t.phase))
      = some ([[0xE0, 0x00, 0x04, 0x01, 0x00, 0x00, 0x05]], [0x01, 0x00, 0x00], .boundary) := by decide
/-- Bytes of no frame and no time-out: the iteration goes on (70_reset_and_hazards.md R329). -/
theorem test_poll_jvs_starved :
    after (exec (.poll 0) (receiving [0x55, 0x56] idle)) (fun t => (t.phase, t.ports.serial))
      = some (.receive, [])
    ∧ after (step (acting (.serial (some 0x57)) (receiving [] idle)))
      (fun t => (t.phase, t.ports.serial)) = some (.receive, [some 0x57])
    ∧ after (step (acting (.serial none) (receiving [] idle)))
      (fun t => (t.phase, t.ports.serial)) = some (.receive, [none]) := by decide
/-- V-G1: the table is replaced, the flag cleared. -/
theorem test_reconfig :
    after (exec (.reconfig kbdTable) { joy with reconfigPending := true })
      (fun t => (decide (t.map = kbdTable), t.reconfigPending)) = some (true, false) := by decide
theorem test_reconfig_incomplete : reason (exec (.reconfig [row []]) joy) = some .incompleteTable := by
  decide
/-- 93 U7: a change of a table that is pending is refused; the same table again changes nothing. -/
theorem test_request_while_pending :
    reason (step (acting (.request glueTable) (pending (receiving [] idle)))) = some .pendingTableChanged
    ∧ after (step (acting (.request idle.map) (pending (receiving [] idle))))
      (fun t => (t.reconfigPending, decide (t.reconfigTable = idle.map), t.phase))
      = some (true, true, .receive) := by decide
/-- V-S12: a length byte 0x00 discards the frame; V-S3: an armed byte is read plus one. -/
theorem test_rxByte_length_and_escape :
    after (exec (.jvsRxByte 0x00) (decoding .getLength false 0x01 idle)) (fun t => t.rx.state)
      = some .waitSync
    ∧ after (exec (.jvsRxByte 0xDF) (decoding .getData true 0x05 idle))
      (fun t => (t.rx.buf.headD 0, t.rx.sum, t.rx.escape, t.rx.state))
      = some (0xE0, 0xE5, false, .getChecksum) := by decide
/-- V-S10: a checksum failure. -/
theorem test_rxByte_checksum :
    after (exec (.jvsRxByte 0x33) (decoding .getChecksum false 0x32 idle))
      (fun t => (t.rx.state, t.ret, conditionsRaised t.trace, framesSent t.trace))
      = some (.waitSync, .rx false, [.checksumError], []) := by decide
/-- V-J6: the walk stops at the unsupported byte. -/
theorem test_dispatch_unsupported :
    after (exec .jvsDispatch (framed 0x01 [0x20, 0x01, 0x01, 0x32, 0x20, 0x01, 0x01] idle))
      (fun t => (framesSent t.trace, t.lastTx.bytes, conditionsRaised t.trace))
      = some ([[0xE0, 0x00, 0x02, 0x02, 0x04]], [0x02], [.unsupportedCommand 0x32]) := by decide
/-- V-J25: `RESET`, then a command after it, in one frame addressed by id. -/
theorem test_dispatch_reset_then_coins :
    after (exec .jvsDispatch (framed 0x02 [0xF0, 0xD9, 0x21, 0x01] { idle with deviceId := 0x02 }))
      (fun t => (framesSent t.trace, t.sense, t.deviceId))
      = some ([[0xE0, 0x00, 0x04, 0x01, 0x00, 0x00, 0x05]], false, 0x00) := by decide
/-- V-S3: both special bytes as data. -/
theorem test_txFrame_stuffing :
    after (exec (.jvsTxFrame 0x01 [0xE0, 0xD0, 0x05]) idle) (fun t => framesSent t.trace)
      = some [[0xE0, 0x01, 0x04, 0xD0, 0xDF, 0xD0, 0xCF, 0x05, 0xBA]] := by decide
/-- V-S4 and V-S5: an escaped checksum, an escaped destination. -/
theorem test_txFrame_escaped_ends :
    wireFrame Config.default 0x01 [0xDD] = [0xE0, 0x01, 0x02, 0xDD, 0xD0, 0xDF]
    ∧ wireFrame Config.default 0xD0 [0x2F] = [0xE0, 0xD0, 0xCF, 0x02, 0x2F, 0x01] := by decide
/-- V-X2, V-X3, V-X5: most significant bit first, into the second byte, and cleared. -/
theorem test_setSwitch_bits :
    after (exec (.setSwitch 1 6 true) { idle with sw := [[0x80, 0x00], [0x00, 0x00]] }) (fun t => t.sw)
      = some [[0x82, 0x00], [0x00, 0x00]]
    ∧ after (exec (.setSwitch 1 8 true) { idle with sw := [[0x82, 0x00], [0x00, 0x00]] }) (fun t => t.sw)
      = some [[0x82, 0x80], [0x00, 0x00]]
    ∧ after (exec (.setSwitch 1 0 false) { idle with sw := [[0x82, 0x80], [0x00, 0x00]] }) (fun t => t.sw)
      = some [[0x02, 0x80], [0x00, 0x00]] := by decide
/-- V-X8 and V-X9: out of range, and the least significant bit first. -/
theorem test_setSwitch_range_and_order :
    after (exec (.setSwitch 0 0 true) idle) (fun t => t.sw) = some idle.sw
    ∧ after (exec (.setSwitch 3 0 true) idle) (fun t => t.sw) = some idle.sw
    ∧ after (exec (.setSwitch 1 16 true) idle) (fun t => t.sw) = some idle.sw
    ∧ after (exec (.setSwitch 1 0 true)
        { idle with cfg := { Config.default with switchMsbFirst := false } }) (fun t => t.sw)
      = some [[0x01, 0x00], [0x00, 0x00]] := by decide
/-- V-X11 and V-X12: saturation, and a slot out of range. -/
theorem test_incCoin :
    after (exec (.incCoin 1) { idle with coin := [0, 16382] }) (fun t => t.coin) = some [0, 16383]
    ∧ after (exec (.incCoin 1) { idle with coin := [0, 16383] }) (fun t => t.coin) = some [0, 16383]
    ∧ after (exec (.incCoin 2) { idle with coin := [7, 8] }) (fun t => t.coin) = some [7, 8] := by decide
/-- V-J1. -/
theorem test_reset_command :
    after (exec (.reset 0xD9) (walking [0xF0, 0xD9] idle))
      (fun t => (t.proto, t.deviceId, t.sense, t.cmdPtr, t.txBuf))
      = some (.uninitialized, 0x00, false, 2, [0x01]) := by decide
/-- V-J2, and V-J36's report byte. -/
theorem test_assignAddr :
    after (exec (.assignAddr 0xE0) (walking [0xF1, 0xE0] State.reset))
      (fun t => (t.deviceId, t.sense, t.cmdPtr, t.txBuf)) = some (0xE0, true, 2, [0x01])
    ∧ after (exec (.assignAddr 0x01) { walking [0xF1, 0x01] State.reset with
        cfg := { Config.default with perCommandReport := true } }) (fun t => t.txBuf)
      = some [0x01, 0x01] := by decide
/-- V-J9: the five queries. -/
theorem test_identity_queries :
    after (exec .ioIdent (walking [0x10] idle)) (fun t => t.txBuf)
      = some [0x01, 0x48, 0x49, 0x44, 0x4F, 0x00]
    ∧ after (exec .cmdRev (walking [0x11] idle)) (fun t => t.txBuf) = some [0x01, 0x13]
    ∧ after (exec .jvsRev (walking [0x12] idle)) (fun t => t.txBuf) = some [0x01, 0x30]
    ∧ after (exec .commVer (walking [0x13] idle)) (fun t => t.txBuf) = some [0x01, 0x10]
    ∧ after (exec .featChk (walking [0x14] idle)) (fun t => (t.txBuf, t.cmdPtr))
      = some ([0x01, 0x01, 0x02, 0x10, 0x00, 0x02, 0x02, 0x00, 0x00, 0x00], 1) := by decide
/-- V-J12: bytes and players the block does not hold read 0x00. -/
theorem test_readSwitches_absent :
    after (exec (.readSwitches 3 3) { walking [0x20, 0x03, 0x03] idle with
      sw := [[0x82, 0x80], [0x20, 0x00]] }) (fun t => t.txBuf)
      = some [0x01, 0x00, 0x82, 0x80, 0x00, 0x20, 0x00, 0x00, 0x00, 0x00, 0x00] := by decide
/-- V-J14 and V-J16: high byte first, a slot out of range reads 0. -/
theorem test_readCoins :
    after (exec (.readCoins 3) { walking [0x21, 0x03] idle with coin := [3, 16383] })
      (fun t => t.txBuf) = some [0x01, 0x00, 0x03, 0x3F, 0xFF, 0x00, 0x00] := by decide
/-- V-J20: 1 + 252 bytes do not fit. -/
theorem test_readCoins_overflow :
    after (exec (.readCoins 126) (walking [0x21, 0x7E] idle))
      (fun t => (t.lastTx.bytes, t.phase)) = some ([0x02], .boundary) := by decide +kernel
/-- V-J28 and V-J23: the previous packet again; before any packet, nothing. -/
theorem test_retransmit :
    after (exec .retransmit { walking [0x2F] idle with txBuf := [0x01, 0x00, 0x00] })
      (fun t => (framesSent t.trace, t.lastTx.bytes))
      = some ([[0xE0, 0x00, 0x02, 0x01, 0x03]], [0x01])
    ∧ after (exec .retransmit (walking [0x2F] State.reset)) (fun t => framesSent t.trace)
      = some [] := by decide
/-- V-J29: what was built is truncated to the one status byte. -/
theorem test_unsupported :
    after (exec (.unsupported 0x99) { walking [0x99] idle with txBuf := [0x01, 0x55] })
      (fun t => (framesSent t.trace, t.lastTx.bytes, t.phase))
      = some ([[0xE0, 0x00, 0x02, 0x02, 0x04]], [0x02], .boundary) := by decide
/-- V-S14: `SYNC` directly after `ESCAPE` is a start of frame. -/
theorem test_sync_after_escape :
    after (exec .sync (decoding .getData true 0x04 idle))
      (fun t => (t.rx.state, t.rx.escape, t.rx.sum, t.rx.count))
      = some (.getDestination, false, 0x00, 0) := by decide
/-- V-S15, V-S16, V-S17: `ESCAPE` after `ESCAPE`, the wrap of 0xFF, and no arming in `WaitSync`. -/
theorem test_escape :
    after (exec (.escape 0xD0) (decoding .getData false 0x03 idle)) (fun t => t.rx.buf.headD 0)
      = some 0xD1
    ∧ after (exec (.escape 0xFF) (decoding .getData false 0x03 idle)) (fun t => (t.rx.buf.headD 9, t.rx.sum))
      = some (0x00, 0x03)
    ∧ after (exec (.escape 0x55) idle) (fun t => (t.rx.state, t.rx.escape)) = some (.waitSync, false) := by
  decide

/-! ## Witnesses: what meets an obligation's hypotheses. A statement with several clauses has one for
each clause, at the boundary values of its ranges. -/

/-- Both spaces; the escaped byte next to `SYNC`. -/
theorem witness_DecodeOfEncodeIsTheInstruction :
    Config.default.wf = true
    ∧ Instr.wf Config.default (.readSwitches 0xFF 0x00) = true
    ∧ Instr.space (.readSwitches 0xFF 0x00) = some .data
    ∧ Instr.wf Config.default (.unsupported 0x22) = true ∧ Instr.space (.unsupported 0x22) = some .data
    ∧ Instr.wf Config.default (.escape 0xE1) = true ∧ Instr.space (.escape 0xE1) = some .wire := by
  decide

theorem witness_EncodeOfDecodedCommandIsItsBytes :
    decode Config.default .data [0x20, 0x01, 0x02, 0x99] = .ok (.readSwitches 0x01 0x02, [0x99])
    ∧ decode Config.default .data [0x99] = .ok (.unsupported 0x99, []) := by decide

theorem witness_AssembledProgramReadsBack :
    Config.default.wf = true
    ∧ (∀ cmd ∈ [Command.reset 0xD9, .ioIdent, .unsupported 0x99], cmd.toInstr.wf Config.default = true)
    ∧ [Command.reset 0xD9, .ioIdent, .unsupported 0x99].length ≤ 3 := by decide

/-- One record for each of the six values. -/
theorem witness_ConfigurationsHaveTheFixedValues :
    ¬ ({ Config.default with maxPins := 18 } : Config).maxPins = 17
    ∧ ¬ ({ Config.default with buttonIndexMax := 28 } : Config).buttonIndexMax = 29
    ∧ ¬ ({ Config.default with jvsSync := 0xE1 } : Config).jvsSync = 0xE0
    ∧ ¬ ({ Config.default with jvsEscape := 0xD1 } : Config).jvsEscape = 0xD0
    ∧ ¬ ({ Config.default with jvsMaxPayload := 251 } : Config).jvsMaxPayload = 252
    ∧ ¬ ({ Config.default with jvsCoinMax := 16382 } : Config).jvsCoinMax = 16383 := by decide

theorem witness_ResetMeetsInvariant : joyCfg.wf = true ∧ glueCfg.wf = true := by decide

/-- At the boundary, receiving, and in a walk. -/
theorem witness_StepKeepsInvariant :
    (acting (.incCoin 0) idle).Inv
    ∧ after (step (acting (.incCoin 0) idle)) (fun t => t.coin) = some [1, 0]
    ∧ (receiving [0xE0] idle).Inv
    ∧ after (step (receiving [0xE0] idle)) (fun t => t.rx.state) = some .getDestination
    ∧ (walking [0xF1, 0x05] idle).Inv
    ∧ after (step (walking [0xF1, 0x05] idle)) (fun t => t.deviceId) = some 0x05 :=
  ⟨by decide +kernel, by decide +kernel, by decide +kernel, by decide +kernel, by decide +kernel,
    by decide +kernel⟩

/-- At the boundary, listening, and where the premise asks nothing: inside a symbol and in a walk. -/
theorem witness_StepGoesOnFromInvariant :
    (acting (.setSwitch 1 0 true) idle).Inv
    ∧ nextAct (acting (.setSwitch 1 0 true) idle) = .setSwitch 1 0 true ∧ idle.cfg.mode = .jvs
    ∧ (acting (.request glueTable) (receiving [] idle)).Inv
    ∧ nextAct (acting (.request glueTable) (receiving [] idle)) = .request glueTable
    ∧ tableOk idle.cfg glueTable = true ∧ idle.reconfigPending = false
    ∧ (receiving [0x55] idle).Inv ∧ (receiving [0x55] idle).ports.serial ≠ []
    ∧ (walking [0x10] idle).Inv ∧ (walking [0x10] idle).phase = .walk :=
  ⟨by decide +kernel, by decide, by decide, by decide +kernel, by decide, by decide, by decide,
    by decide +kernel, by decide, by decide +kernel, by decide⟩

theorem witness_StepRunsTheDecodedCommand :
    (walking [0x21, 0x02] idle).cfg.wf = true ∧ (walking [0x21, 0x02] idle).phase = .walk
    ∧ (walking [0x21, 0x02] idle).cmdPtr < (walking [0x21, 0x02] idle).rx.count
    ∧ decode (walking [0x21, 0x02] idle).cfg .data
        (((walking [0x21, 0x02] idle).rx.buf.take (walking [0x21, 0x02] idle).rx.count).drop
          (walking [0x21, 0x02] idle).cmdPtr) = .ok (.readCoins 0x02, [])
    ∧ Instr.wf (walking [0x21, 0x02] idle).cfg (.readCoins 0x02) = true := by decide

/-- A two-byte command with no argument byte; a three-byte command with one. -/
theorem witness_StepTakesIncompleteCommandAsUnsupported :
    (walking [0xF0] idle).cfg.wf = true ∧ (walking [0xF0] idle).phase = .walk
    ∧ (walking [0xF0] idle).cmdPtr < (walking [0xF0] idle).rx.count
    ∧ ((walking [0xF0] idle).rx.buf.take 1).drop 0 = 0xF0 :: [] ∧ ([] : List Byte).length + 1 < 2
    ∧ (0xF0 : Byte) = (walking [0xF0] idle).cfg.ops.reset
    ∧ (walking [0x20, 0x01] idle).cmdPtr < (walking [0x20, 0x01] idle).rx.count
    ∧ ((walking [0x20, 0x01] idle).rx.buf.take 2).drop 0 = 0x20 :: [0x01]
    ∧ ([0x01] : List Byte).length + 1 < 3
    ∧ (0x20 : Byte) = (walking [0x20, 0x01] idle).cfg.ops.readSwitches := by decide

/-- The five alternatives on the line. -/
theorem witness_StepRunsTheReceivedSymbol_alternatives :
    (receiving [0xE0] idle).cfg.wf = true ∧ (receiving [0xE0] idle).phase = .receive
    ∧ (receiving [0xE0] idle).ports.serial = some 0xE0 :: []
    ∧ (receiving [0xD0, 0xDF] idle).rx.escape = false
    ∧ (receiving [0xD0, 0xDF] idle).ports.serial = some 0xD0 :: some 0xDF :: [] ∧ (0xDF : Byte) ≠ 0xE0
    ∧ (receiving [0xD0] idle).ports.serial = some 0xD0 :: []
    ∧ (receiving [0xD0, 0xE0] idle).ports.serial = some 0xD0 :: some 0xE0 :: []
    ∧ (receiving [0xD0] (decoding .getData true 0x00 idle)).rx.escape = true
    ∧ (receiving [0xDF] idle).ports.serial = some 0xDF :: [] := by decide

/-- The three outcomes: no frame complete, a frame for the assigned id and a broadcast one, and a
frame for another node. -/
theorem witness_StepRunsTheReceivedSymbol_outcomes :
    after (exec (.jvsRxByte 0x55) idle) (fun t => t.ret) = some (.rx false)
    ∧ after (exec (.jvsRxByte 0x32) (decoding .getChecksum false 0x32 (framed 0x01 [0x2F] idle)))
      (fun t => (t.ret, t.proto, decide (t.rx.dest = t.deviceId))) = some (.rx true, .addressed, true)
    ∧ after (exec (.jvsRxByte 0x32) (decoding .getChecksum false 0x32 (framed 0xFF [0x2F] idle)))
      (fun t => (t.ret, decide (t.rx.dest = t.cfg.broadcastAddr))) = some (.rx true, true)
    ∧ after (exec (.jvsRxByte 0x32) (decoding .getChecksum false 0x32 (framed 0x02 [0x2F] idle)))
      (fun t => (t.ret, decide (t.rx.dest = t.cfg.broadcastAddr), decide (t.rx.dest = t.deviceId)))
      = some (.rx true, false, false) := by decide

/-- A receiving block whose next results start with a time-out. -/
def timedOut (rest : List (Option Byte)) (s : State) : State :=
  { s with phase := .receive, ports := { s.ports with serial := none :: rest } }

theorem witness_TimeoutEndsTheIterationOnly :
    (timedOut [some 0xE0] idle).cfg.wf = true ∧ (timedOut [some 0xE0] idle).phase = .receive
    ∧ (timedOut [some 0xE0] idle).ports.serial = none :: [some 0xE0] := by decide

/-- Each of the six acts, presented to a block that listens; a request of an incomplete table, and with
a table pending a request of the same and of another one. -/
theorem witness_ListeningWaitsForTheOutside :
    idle.cfg.wf = true ∧ (receiving [] idle).phase = .receive ∧ (receiving [] idle).ports.serial = []
    ∧ nextAct (acting (.serial none) (receiving [] idle)) = .serial none
    ∧ nextAct (acting (.serial (some 0xE0)) (receiving [] idle)) = .serial (some 0xE0)
    ∧ nextAct (acting (.request glueTable) (receiving [] idle)) = .request glueTable
    ∧ tableOk idle.cfg glueTable = true ∧ idle.reconfigPending = false
    ∧ (pending (receiving [] idle)).reconfigPending = true
    ∧ tableOk idle.cfg idle.reconfigTable = true ∧ glueTable ≠ idle.reconfigTable
    ∧ tableOk idle.cfg [row []] = false
    ∧ nextAct (acting .powerOn (receiving [] idle)) = .powerOn
    ∧ nextAct (acting (turn 5 [] []) (receiving [] idle)) = turn 5 [] []
    ∧ nextAct (acting (.setSwitch 1 0 true) (receiving [] idle)) = .setSwitch 1 0 true
    ∧ nextAct (acting (.incCoin 0) (receiving [] idle)) = .incCoin 0 := by decide

/-- Two bytes before any frame, and an open frame restarted for ever. -/
theorem witness_StarvedIterationGoesOn :
    (receiving [] idle).cfg.wf = true ∧ (receiving [] idle).cfg.mode = .jvs
    ∧ (receiving [] idle).phase = .receive ∧ (receiving [] idle).ports.serial = []
    ∧ { receiving [] idle with script := [.serial (some 0x55), .serial (some 0x56), .incCoin 0] }.script
      = ([0x55, 0x56] : List Byte).map (fun b => Act.serial (some b)) ++ [.incCoin 0]
    ∧ RxResult.complete ∉ receiveResults idle.cfg [0x55, 0x56] idle.rx
    ∧ RxResult.complete ∉ receiveResults idle.cfg [0xE0, 0x01, 0x05, 0x10, 0xE0, 0xE0] idle.rx := by
  decide

/-- An empty frame, and a frame walked to its end. -/
theorem witness_StepEndsTheWalk :
    (walking [] idle).cfg.wf = true ∧ (walking [] idle).phase = .walk
    ∧ (walking [] idle).rx.count ≤ (walking [] idle).cmdPtr
    ∧ (walking [0x10] idle).rx.count ≤ { walking [0x10] idle with cmdPtr := 1 }.cmdPtr := by decide

theorem witness_StepAtTheBoundary :
    idle.cfg.wf = true ∧ idle.phase = .boundary ∧ idle.reconfigPending = false ∧ idle.script = []
    ∧ { idle with reconfigPending := true }.reconfigPending = true
    ∧ (acting (.incCoin 0) idle).script = .incCoin 0 :: []
    ∧ nextAct (acting (.setSwitch 1 0 true) idle) = .setSwitch 1 0 true
    ∧ nextAct (acting (.incCoin 0) idle) = .incCoin 0
    ∧ nextAct (acting (.request glueTable) idle) = .request glueTable
    ∧ tableOk idle.cfg glueTable = true
    ∧ nextAct (acting (.serial (some 0xE0)) idle) = .serial (some 0xE0)
    ∧ nextAct (acting (turn 0 [] []) joy) = turn 0 [] []
    ∧ joy.cfg.wf = true ∧ joy.phase = .boundary ∧ joy.cfg.mode ≠ .jvs ∧ idle.cfg.mode = .jvs := by decide

theorem witness_PowerOnResetsEveryRegister :
    idle.cfg.wf = true ∧ idle.phase = .boundary ∧ idle.reconfigPending = false
    ∧ nextAct (acting .powerOn idle) = .powerOn := by decide

/-- At the boundary, in the receive loop with a byte presented, and listening to a power-on. -/
theorem witness_PendingTableIsStableUntilTheBoundary :
    after (step (pending idle)) (fun t => t.reconfigPending) = some false
    ∧ after (step (pending (receiving [0xE0] idle))) (fun t => t.reconfigPending) = some true
    ∧ after (step (acting .powerOn (pending (receiving [] idle)))) (fun t => t.reconfigPending)
      = some false := by decide

/-- A matching sample, a commit at exactly the threshold, a hold one millisecond before it. -/
theorem witness_ScanDebouncesEveryInput :
    104 < 2 ^ joy.cfg.tsWidth
    ∧ { joy with db := [⟨true, 7⟩, ⟨false, 99⟩, ⟨false, 100⟩] }.db.length = joy.cfg.inputs.length
    ∧ joy.cfg.inputs[0]? = some ⟨1, 0, true, 7⟩ ∧ joy.cfg.inputs[1]? = some ⟨1, 1, false, 8⟩
    ∧ joy.cfg.inputs[2]? = some ⟨2, 0, false, 9⟩
    ∧ ((true = true) ↔ (0 ∈ [1, 2] ↔ true = false))
    ∧ ((true = true) ↔ (1 ∈ [1, 2] ↔ false = false))
    ∧ ((5 : Int) ≤ ((104 : Int) - 99) % ((2 ^ 32 : Nat) : Int))
    ∧ ((104 : Int) - 100) % ((2 ^ 32 : Nat) : Int) < 5 := by decide

/-- Two holding samples, the last one millisecond early, a commit at the threshold, one more. -/
theorem witness_StableFlipsExactlyAtTheThreshold :
    joy.dbOk ∧ joy.cfg.inputs[1]? = some ⟨1, 1, false, 8⟩ ∧ joy.db[1]? = some ⟨false, 100⟩
    ∧ (∀ e ∈ [(101, [1]), (104, [1])], e.1 < 2 ^ joy.cfg.tsWidth
      ∧ rawPressed ⟨1, 1, false, 8⟩ e.2 1 = !false ∧ elapsed joy.cfg.tsWidth e.1 100 < joy.cfg.debounceMs)
    ∧ 105 < 2 ^ joy.cfg.tsWidth ∧ rawPressed ⟨1, 1, false, 8⟩ [1] 1 = !false
    ∧ joy.cfg.debounceMs ≤ elapsed joy.cfg.tsWidth 105 100
    ∧ (∀ e ∈ [(106, [1])], e.1 < 2 ^ joy.cfg.tsWidth ∧ rawPressed ⟨1, 1, false, 8⟩ e.2 1 = !false) := by
  decide

/-- Player 2's actions exist and hold its one pressed key, which the table's second row names. -/
theorem witness_MapResolvesThePressedInputs :
    kbd.cfg.wf = true ∧ kbd.tablesOk ∧ [true, false, true].length = kbd.cfg.inputs.length
    ∧ 1 ≤ 2 ∧ (mapActions kbd.cfg kbd.map [true, false, true]).players[2 - 1]?
      = some (playerActions [.keyCode 0x04])
    ∧ (⟨2, 0, false, 9⟩, true) ∈ kbd.cfg.inputs.zip [true, false, true]
    ∧ kbd.map[2 - 1]? = some (row [.keyCode 0x04]) ∧ (row [.keyCode 0x04])[0]? = some (.keyCode 0x04)
    ∧ (playerActions [.keyCode 0x04]).keys.getLsbD 4 = true := by decide

/-- The last player of the range. -/
theorem witness_JoystickReportLayout :
    joy.cfg.mode = .joystick ∧ 1 ≤ 2 ∧ 2 ≤ joy.cfg.nPlayers
    ∧ (actions [.axisUp] []).players[2 - 1]? = some (playerActions [])
    ∧ 1 ≤ 1 ∧ 1 ≤ joy.cfg.nPlayers
    ∧ (actions [.axisUp] []).players[1 - 1]? = some (playerActions [.axisUp]) := by decide

theorem witness_SlotPolicyReport : kbd.cfg.mode = .keyboard ∧ kbd.cfg.kbdPolicy = .slot 6 := by decide

/-- A key that finds no slot although it is no modifier. -/
theorem witness_SlotsHoldNoDuplicates :
    (0x04 : Byte) ∈ slotKeys kbdCfg 1 (actions [] [0x04, 0x05])
    ∧ (0x05 : Byte) ∈ (actions [] [0x04, 0x05]).keyseq ∧ (0x05 : Byte) ≠ 0x00
    ∧ isModifier kbdCfg 0x05 = false ∧ (0x05 : Byte) ∉ slotKeys kbdCfg 1 (actions [] [0x04, 0x05]) := by
  decide

theorem witness_BitmapPolicyReport :
    bitmapCfg.wf = true ∧ bitmapCfg.mode = .keyboard ∧ bitmapCfg.kbdPolicy = .bitmap 104 ∧ 103 < 104 := by
  decide

/-- For each player a report equal to the last one, a transport not configured, a taken offer and a
refused offer. -/
theorem witness_JoystickPollIsScanMapEncode :
    joy.Inv ∧ joy.cfg.mode = .joystick
    ∧ State.Inv { joy with joyLast := [⟨true, [1, 0, 0, 0, 0]⟩, ⟨true, [2, 0, 0, 0, 0]⟩] }
    ∧ joyReport joyCfg (playerActions []) 1 = [1, 0, 0, 0, 0]
    ∧ joyReport joyCfg (playerActions []) 2 = [2, 0, 0, 0, 0]
    ∧ State.Inv { joy with ports := Ports.quiet } ∧ Ports.quiet.transport.configured = false
    ∧ joy.joyLast.map (fun l => l.valid) = [false, false]
    ∧ joy.ports.transport = ⟨true, true, true, true⟩
    ∧ State.Inv { joy with ports := ⟨[], ⟨true, false, false, true⟩, []⟩ } :=
  ⟨by decide +kernel, by decide, by decide +kernel, by decide, by decide, by decide +kernel,
    by decide, by decide, by decide, by decide +kernel⟩

/-- A report equal to the last one, a transport not configured, a taken offer, a refused offer. -/
theorem witness_KeyboardPollIsScanMapEncode :
    kbd.Inv ∧ kbd.cfg.mode = .keyboard
    ∧ State.Inv { kbd with kbdLast := ⟨true, [0, 0, 0, 0, 0, 0, 0, 0]⟩ }
    ∧ kbdReport kbdCfg (actions [] []) = [0, 0, 0, 0, 0, 0, 0, 0]
    ∧ State.Inv { kbd with ports := Ports.quiet } ∧ kbd.kbdLast.valid = false
    ∧ kbd.ports.transport = ⟨true, true, true, true⟩
    ∧ State.Inv { kbd with ports := ⟨[], ⟨true, true, true, false⟩, []⟩ } :=
  ⟨by decide +kernel, by decide, by decide +kernel, by decide, by decide +kernel, by decide,
    by decide, by decide +kernel⟩

/-- The first poll hands a report over, and the second computes the same action set. -/
theorem witness_IdenticalActionSetsSendOnce :
    kbd.Inv ∧ kbd.cfg.mode ≠ .jvs
    ∧ after (exec (.poll 101) kbd) (fun t => reportsOffered t.trace)
      = some [(.kbd, [0, 0, 0, 0, 0, 0, 0, 0], true)]
    ∧ after (exec (.poll 101) kbd) (fun t => t.db.map (fun d => d.stable)) = some [false, false, false]
    ∧ after (andThen (exec (.poll 101) kbd) (exec (.poll 102))) (fun t => t.db.map (fun d => d.stable))
      = some [false, false, false] :=
  ⟨by decide +kernel, by decide⟩

/-- A complete table; one row short; a row of 16; a button past the last. -/
theorem witness_ReconfigReplacesTheWholeTable :
    joy.cfg.wf = true ∧ kbdTable.length = joy.cfg.nPlayers
    ∧ (∀ r ∈ kbdTable, r.length = 17 ∧ ∀ f ∈ r, f.ok joy.cfg = true)
    ∧ ¬ [row []].length = joy.cfg.nPlayers ∧ ¬ ((row []).take 16).length = 17
    ∧ Func.button 30 ∈ row [.button 30] ∧ ¬ 30 ≤ 29 := by decide

theorem witness_OperationsThatCannotFail :
    Instr.wf joyCfg (.scan (2 ^ 32 - 1)) = true ∧ Instr.wf joyCfg (.map [true, true, true]) = true
    ∧ Instr.wf joyCfg (.encJoy (actions [] []) 2) = true ∧ joyCfg.mode = .joystick
    ∧ Instr.wf kbdCfg (.encKbd (actions [] [])) = true ∧ kbdCfg.mode = .keyboard
    ∧ Instr.wf glueCfg (.jvsTxFrame 0x00 []) = true ∧ Instr.wf glueCfg (.setSwitch 0 99 true) = true
    ∧ Instr.wf glueCfg (.incCoin 99) = true ∧ glueCfg.mode = .jvs
    ∧ Instr.wf joyCfg (.reconfig joyTable) = true := by decide

/-- The five clauses of the table's left side. -/
theorem witness_ReceiveByteTransitions :
    idle.cfg.wf = true ∧ idle.cfg.mode = .jvs ∧ idle.rx.state = .waitSync ∧ (0xDF : Byte) ≠ 0xE0
    ∧ (decoding .getData false 0 idle).rx.state ≠ .waitSync
    ∧ (decoding .getData false 0 idle).rx.escape = false
    ∧ (decoding .getData true 0 idle).rx.state ≠ .waitSync
    ∧ (decoding .getData true 0 idle).rx.escape = true
    ∧ (0xE1 : Byte) ≠ 0xE0 ∧ (0xD1 : Byte) ≠ 0xD0 := by decide

/-- The clauses of `ReceivedAs`, the length byte at each end of each range. -/
theorem witness_ReceivedAs :
    (decoding .getDestination false 0 idle).rx.state = .getDestination
    ∧ (decoding .getLength false 0 idle).rx.state = .getLength
    ∧ 253 < (254 : Byte).toNat ∧ 2 ≤ (2 : Byte).toNat ∧ (2 : Byte).toNat ≤ 253
    ∧ 2 ≤ (253 : Byte).toNat ∧ (253 : Byte).toNat ≤ 253
    ∧ (decoding .getData false 0 idle).rx.state = .getData
    ∧ (decoding .getChecksum false 5 idle).rx.state = .getChecksum
    ∧ (5 : Byte) = (decoding .getChecksum false 5 idle).rx.sum
    ∧ (4 : Byte) ≠ (decoding .getChecksum false 5 idle).rx.sum := by decide

theorem witness_SyncRestartsReception : idle.cfg.mode = .jvs := by decide

theorem witness_EscapePairIsOneByte :
    idle.cfg.wf = true ∧ idle.cfg.mode = .jvs ∧ (0xDF : Byte) ≠ 0xE0 ∧ idle.rx.escape = false ∧ idle.rx.state = .waitSync
    ∧ (decoding .getLength false 0 idle).rx.escape = false
    ∧ (decoding .getLength false 0 idle).rx.state ≠ .waitSync := by decide

theorem witness_ChecksumErrorChangesNothingElse :
    idle.cfg.wf = true ∧ (decoding .getChecksum true 0x32 idle).cfg.mode = .jvs
    ∧ (decoding .getChecksum true 0x32 idle).rx.state = .getChecksum ∧ (0x32 : Byte) ≠ 0xE0
    ∧ ¬ ((0x32 : Byte) = 0xD0 ∧ (decoding .getChecksum true 0x32 idle).rx.escape = false)
    ∧ (0x33 : Byte) = (if (decoding .getChecksum true 0x32 idle).rx.escape then 0x32 + 1 else 0x32)
    ∧ (0x33 : Byte) ≠ (decoding .getChecksum true 0x32 idle).rx.sum := by decide

/-- The longest data and one byte more. -/
theorem witness_TransmitFrameBytes :
    idle.cfg.wf = true ∧ (List.replicate 252 (0x00 : Byte)).length ≤ 252 ∧ idle.cfg.mode = .jvs
    ∧ 252 < (List.replicate 253 (0x00 : Byte)).length :=
  ⟨by decide, List.length_replicate.le, by decide, List.length_replicate.ge⟩

theorem witness_WireFormIsStuffed :
    Config.default.wf = true ∧ ([0xE0, 0xD0, 0x05] : List Byte).length ≤ 252 := by decide

theorem witness_FrameRoundTrip :
    Config.default.wf = true ∧ ([0xE0, 0xD0, 0x05] : List Byte).length ≤ 252
    ∧ (decoding .getData true 0x55 idle).rx.buf.length = 252 :=
  by decide +kernel

/-- V-S11: 0x05 read as 0x04; and the pair of 0xE0 read as D0 DE. -/
theorem witness_CorruptedByteIsDetected :
    Config.default.wf = true ∧ ([0xE0, 0xD0, 0x05] : List Byte).length ≤ 252
    ∧ idle.rx.buf.length = 252
    ∧ (0x04 : Byte) = BitVec.ofNat 8 (3 + 1)
    ∧ (0xBA : Byte) = byteSum (0x01 :: 0x04 :: [0xE0, 0xD0, 0x05])
    ∧ ([0xE0, 0xD0, 0x05] : List Byte)[2]? = some 0x05 ∧ (0x04 : Byte) ≠ 0x05
    ∧ (0x05 : Byte) ≠ 0xE0 ∧ (0x05 : Byte) ≠ 0xD0 ∧ (0x04 : Byte) ≠ 0xE0 ∧ (0x04 : Byte) ≠ 0xD0
    ∧ ([0xE0, 0x01, 0x04, 0xD0, 0xDF, 0xD0, 0xCF, 0x04, 0xBA] : List Byte)
      = 0xE0 :: (([0x01, 0x04, 0xE0, 0xD0] : List Byte).flatMap (stuff Config.default) ++ [0x04]
          ++ ([0xBA] : List Byte).flatMap (stuff Config.default))
    ∧ ([0xE0, 0xD0, 0x05] : List Byte)[0]? = some 0xE0 ∧ (0xDE : Byte) ≠ 0xE0 - 1
    ∧ (0xDE : Byte) ≠ 0xE0
    ∧ receiveResults Config.default [0xE0, 0x01, 0x04, 0xD0, 0xDE, 0xD0, 0xCF, 0x05, 0xBA] idle.rx
      = List.replicate 8 .none ++ [.checksumError] :=
  by decide +kernel

theorem witness_ResetAndAssignAddr :
    (walking [0xF0, 0xD9] idle).cfg.mode = .jvs
    ∧ ([] : List Byte) = (if (walking [0xF0, 0xD9] idle).cfg.perCommandReport then [0x01] else [])
    ∧ (walking [0xF0, 0xD9] idle).txBuf.length + ([] : List Byte).length ≤ 252 := by decide

/-- The longest of the five bodies. -/
theorem witness_IdentityQueries :
    (walking [0x14] idle).cfg.mode = .jvs
    ∧ (walking [0x14] idle).txBuf.length + ([] ++ (walking [0x14] idle).cfg.features).length ≤ 252 := by
  decide

/-- The largest request of V-J17, with a byte and a player on each side of what the block holds. -/
theorem witness_ReadSwitchesBody :
    (walking [0x20, 0x7D, 0x02] idle).cfg.mode = .jvs ∧ (walking [0x20, 0x7D, 0x02] idle).inputsOk
    ∧ (walking [0x20, 0x7D, 0x02] idle).txBuf.length + 0 + 1 + (0x7D : Byte).toNat * (0x02 : Byte).toNat ≤ 252
    ∧ (1 < idle.cfg.jvsPlayers ∧ 1 < idle.cfg.switchBytes)
    ∧ ¬ (2 < idle.cfg.jvsPlayers ∧ 1 < idle.cfg.switchBytes) := by decide

/-- V-J19: the largest request. -/
theorem witness_ReadCoinsBody :
    idle.cfg.wf = true ∧ (walking [0x21, 0x7D] idle).cfg.mode = .jvs ∧ (walking [0x21, 0x7D] idle).inputsOk
    ∧ (walking [0x21, 0x7D] idle).txBuf.length + 0 + 2 * (0x7D : Byte).toNat ≤ 252 := by decide

theorem witness_RetransmitResendsLastPacket :
    idle.cfg.mode = .jvs ∧ idle.lastTx.valid = true ∧ State.reset.cfg.mode = .jvs
    ∧ State.reset.lastTx.valid = false := by decide

theorem witness_UnsupportedTruncatesAndStops : idle.cfg.mode = .jvs := by decide

/-- A packet of 252 bytes takes nothing more but an empty body; V-J18's request does not fit. -/
theorem witness_ResponseOverflowIsUnsupported (tx : List Byte) (h : tx.length = 252) :
    idle.cfg.mode = .jvs
    ∧ 252 < { idle with txBuf := tx }.txBuf.length + ([] ++ idle.cfg.idString : List Byte).length
    ∧ 252 < { idle with txBuf := tx }.txBuf.length + ([] ++ [idle.cfg.cmdRev] : List Byte).length
    ∧ 252 < { idle with txBuf := tx }.txBuf.length + ([] ++ idle.cfg.features : List Byte).length
    ∧ 252 < { idle with
        txBuf := tx, cfg := { idle.cfg with perCommandReport := true } }.txBuf.length
          + ([idle.cfg.statusSuccess] ++ [] : List Byte).length
    ∧ 252 < (walking [0x20, 0x7E, 0x02] idle).txBuf.length + (1 + (0x7E : Byte).toNat * (0x02 : Byte).toNat)
    ∧ 252 < (walking [0x21, 0x7E] idle).txBuf.length + 2 * (0x7E : Byte).toNat := by
  refine ⟨rfl, ?_, ?_, ?_, ?_, by decide, by decide⟩ <;> show 252 < tx.length + _ <;> rw [h] <;> decide

/-- V-J10 and V-J11. -/
theorem witness_UnaddressedFrameIsDropped :
    (framed 0x02 [0x20, 0x01, 0x01] idle).cfg.mode = .jvs
    ∧ (framed 0x02 [0x20, 0x01, 0x01] idle).rx.dest ≠ idle.cfg.broadcastAddr
    ∧ (framed 0x02 [0x20, 0x01, 0x01] idle).rx.dest ≠ idle.deviceId
    ∧ (framed 0x00 [0x10] State.reset).rx.dest ≠ State.reset.cfg.broadcastAddr
    ∧ (framed 0x00 [0x10] State.reset).proto = .uninitialized := by decide

/-- P6 step 1: `RESET` and `ASSIGN_ADDR` in one broadcast frame. -/
theorem witness_DispatchRunsTheFramesCommands :
    (framed 0xFF [0xF0, 0xD9, 0xF1, 0x01] State.reset).cfg.wf = true
    ∧ (framed 0xFF [0xF0, 0xD9, 0xF1, 0x01] State.reset).cfg.mode = .jvs
    ∧ (framed 0xFF [0xF0, 0xD9, 0xF1, 0x01] State.reset).rx.dest = State.reset.cfg.broadcastAddr
    ∧ (framed 0x01 [0x10] idle).proto = .addressed ∧ (framed 0x01 [0x10] idle).rx.dest = idle.deviceId
    ∧ (∀ cmd ∈ [Command.reset 0xD9, .assignAddr 0x01], cmd.toInstr.wf Config.default = true)
    ∧ (framed 0xFF [0xF0, 0xD9, 0xF1, 0x01] State.reset).rx.count
      ≤ (framed 0xFF [0xF0, 0xD9, 0xF1, 0x01] State.reset).rx.buf.length
    ∧ (framed 0xFF [0xF0, 0xD9, 0xF1, 0x01] State.reset).rx.buf.take 4
      = assemble Config.default [.reset 0xD9, .assignAddr 0x01] :=
  by decide +kernel

/-- A recorded packet or none, with `RETRANSMIT` and without; a frame for the assigned id, a broadcast
one, and one for another node. -/
theorem witness_DispatchAnswersOnce :
    idle.cfg.wf = true ∧ idle.cfg.mode = .jvs ∧ idle.lastTx.valid = true
    ∧ 1 ≤ idle.lastTx.bytes.length ∧ idle.lastTx.bytes.length ≤ 252
    ∧ State.reset.lastTx.valid = false
    ∧ (framed 0x01 [0x2F] idle).proto = .addressed ∧ (framed 0x01 [0x2F] idle).rx.dest = idle.deviceId
    ∧ (framed 0xFF [0x10] State.reset).rx.dest = State.reset.cfg.broadcastAddr
    ∧ Command.retransmit ∉ disassemble Config.default 1 [0x10]
    ∧ (framed 0x02 [0x2F] idle).rx.dest ≠ idle.cfg.broadcastAddr
    ∧ (framed 0x02 [0x2F] idle).rx.dest ≠ idle.deviceId := by
  decide

/-- A whole frame with a byte after it, bytes that complete none, and the same before a time-out. -/
theorem witness_JvsPollEndsOrKeepsReceiving :
    State.Inv { glue with ports := ⟨[0], ⟨false, false, false, false⟩,
      ([0xE0, 0xFF, 0x01, 0x00] : List Byte).map some ++ [some 0x55]⟩ } ∧ glue.cfg.mode = .jvs
    ∧ RxResult.complete ∈ receiveResults glue.cfg [0xE0, 0xFF, 0x01, 0x00] glue.rx
    ∧ State.Inv { glue with ports := ⟨[0], ⟨false, false, false, false⟩,
      ([0xE0, 0x55] : List Byte).map some ++ []⟩ }
    ∧ RxResult.complete ∉ receiveResults glue.cfg [0xE0, 0x55] glue.rx
    ∧ State.Inv { glue with ports := ⟨[0], ⟨false, false, false, false⟩,
      ([0xE0, 0x55] : List Byte).map some ++ none :: [some 0x56]⟩ } :=
  ⟨by decide +kernel, by decide, by decide, by decide +kernel, by decide, by decide +kernel⟩

theorem witness_JvsPollIsItsSteps :
    (acting (turn 200 [0] [0xE0]) glue).Inv
    ∧ glue.cfg.mode = .jvs ∧ glue.phase = .boundary ∧ glue.reconfigPending = false
    ∧ nextAct (acting (turn 200 [0] [0xE0]) glue) = turn 200 [0] [0xE0] :=
  ⟨by decide +kernel, by decide⟩

/-- V-G2: two inputs on one switch, the higher one pressed; and a bit that no input has. -/
theorem witness_JvsIterationStartsWithTheSwitches :
    { glue with ports := openPorts [0, 1] }.Inv ∧ glue.cfg.mode = .jvs
    ∧ glue.cfg.switchMsbFirst = true
    ∧ glue.cfg.inputs[1]? = some ⟨1, 1, false, 8⟩
    ∧ switchOf glue.cfg (tableEntry glue.map 1 1) = some 3
    ∧ (∀ j, j < 3 → 1 < j → glue.cfg.inputs[j]? = some ⟨2, 0, false, 9⟩)
    ∧ ¬ ((2 = 1) ∧ switchOf glue.cfg (tableEntry glue.map 2 0) = some 3)
    ∧ after (exec (.scan 200) { glue with ports := openPorts [0, 1] }) (fun t => t.db[1]?)
      = some (some ⟨true, 200⟩)
    ∧ (pollStart 200 { glue with ports := openPorts [0, 1] }).sw[1 - 1]? = some [0x10, 0x00]
    ∧ ([0x10, 0x00] : List Byte)[3 / 8]? = some 0x10
    ∧ (glue.sw[0]?.bind (fun r => r[1]?)) = some 0x00
    ∧ (glue.cfg.inputs.filterMap (fun e =>
        (switchOf glue.cfg (tableEntry glue.map e.player e.slot)).map (fun b => (e.player, b))))
      = [(1, 3), (1, 3), (2, 15)] :=
  ⟨by decide +kernel, by decide⟩

/-- The last switch of the last player, and the first ones past every edge. -/
theorem witness_SetSwitchWritesOneBit :
    idle.cfg.mode = .jvs ∧ idle.inputsOk
    ∧ (1 ≤ 2 ∧ 2 ≤ idle.cfg.jvsPlayers ∧ 15 < 8 * idle.cfg.switchBytes)
    ∧ ¬ (1 ≤ 0 ∧ 0 ≤ idle.cfg.jvsPlayers ∧ 0 < 8 * idle.cfg.switchBytes)
    ∧ ¬ (1 ≤ 3 ∧ 3 ≤ idle.cfg.jvsPlayers ∧ 0 < 8 * idle.cfg.switchBytes)
    ∧ ¬ (1 ≤ 2 ∧ 2 ≤ idle.cfg.jvsPlayers ∧ 16 < 8 * idle.cfg.switchBytes)
    ∧ (idle.sw[1]?.bind (fun r => r[1]?)) = some 0x00
    ∧ after (exec (.setSwitch 2 15 true) idle) (fun t => t.sw[1]?.bind (fun r => r[1]?))
      = some (some 0x01) := by decide

/-- The last slot, full, and the first slot past the end. -/
theorem witness_IncCoinSaturates :
    { idle with coin := [0, 16383] }.inputsOk ∧ idle.cfg.mode = .jvs
    ∧ { idle with coin := [0, 16383] }.coin[1]? = some 16383 ∧ idle.cfg.coinSlots ≤ 2 := by decide

/-- `ASSIGN_ADDR`, `RESET`, an operation outside a dispatch, a dispatch without either command, and a
`POLL` in a USB mode, each answering a next state. -/
theorem witness_OnlyResetAndAssignMoveTheSenseLine :
    after (exec (.assignAddr 0x07) idle) (fun t => t.deviceId) = some 0x07
    ∧ after (exec (.reset 0xD9) idle) (fun t => t.deviceId) = some 0x00
    ∧ after (exec (.incCoin 0) idle) (fun t => t.deviceId) = some 0x01
    ∧ after (exec .jvsDispatch (framed 0x01 [0x10] idle)) (fun t => t.deviceId) = some 0x01
    ∧ disassemble idle.cfg 1 [0x10] = [.ioIdent]
    ∧ after (exec (.poll 101) joy) (fun t => t.deviceId) = some 0x00 ∧ joy.cfg.mode ≠ .jvs := by decide

/-- An operation of each mode that answers a next state, and is none of those a clause excludes; a
`POLL` of each mode; and a single command answered `UNSUPPORTED`. -/
theorem witness_AccessMatrix :
    after (exec (.encJoy (actions [] []) 1) joy) (fun t => t.phase) = some .boundary
    ∧ after (exec (.encKbd (actions [] [])) kbd) (fun t => t.phase) = some .boundary
    ∧ after (exec (.jvsTxFrame 0x00 [0x01]) idle) (fun t => t.phase) = some .boundary
    ∧ after (exec (.poll 101) joy) (fun t => t.phase) = some .boundary ∧ joy.cfg.mode ≠ .keyboard
    ∧ after (exec (.poll 101) kbd) (fun t => t.phase) = some .boundary ∧ kbd.cfg.mode ≠ .joystick
    ∧ after (exec (.poll 101) glue) (fun t => t.phase) = some .receive
    ∧ after (exec (.unsupported 0x99) idle) (fun t => t.lastTx.bytes) = some [0x02]
    ∧ after (exec (.ioIdent) idle) (fun t => t.lastTx.bytes) = some [0x01] := by decide

theorem witness_UsbBuildsHaveNoJvsState :
    joy.cfg.mode ≠ .jvs ∧ kbd.cfg.mode ≠ .jvs
    ∧ after (exec (.poll 101) joy) (fun t => t.phase) = some .boundary
    ∧ after (exec (.poll 101) kbd) (fun t => t.phase) = some .boundary := by decide

theorem witness_CoinsNeverGoDown :
    { idle with coin := [0, 16383] }.inputsOk
    ∧ after (exec (.incCoin 1) { idle with coin := [0, 16383] }) (fun t => t.coin[1]?)
      = some (some 16383) := by decide

end Sys2Proof.Tests
end

section
/-! The statements of 00_scope.md. -/

namespace Sys2Proof.Proofs.Scope

open Sys2Proof Sys2Proof.Machine

/-- A record that is no configuration of this hardware is refused in every phase (10_state.md R41). -/
theorem step_of_wf_eq_false {s : State} (h : s.cfg.wf = false) :
    step s = .refused .badConfiguration := by
  simp [step, h]

/-- Settles O5: `Config.wf` gives the six values (`wf_fixed`), so a record without them is not well
formed, and `step` refuses every record that is not. -/
theorem configurationsHaveTheFixedValues : Obligations.ConfigurationsHaveTheFixedValues := by
  intro s hfixed
  have hwf : s.cfg.wf = false := Bool.eq_false_iff.mpr (mt wf_fixed hfixed)
  exact ⟨hwf, step_of_wf_eq_false hwf⟩

end Sys2Proof.Proofs.Scope
end

section
/-! The statements of 10_state.md. -/

namespace Sys2Proof.Proofs.Registers

open Sys2Proof Sys2Proof.Machine

/-! ## What a command of a frame does -/

/-- `proto_state` and `device_id` after a command: `RESET` and `ASSIGN_ADDR` write them
(45_jvs_commands.md R230, R231). -/
def protoAfter (s : State) : Command → ProtoState × Byte
  | .reset _ => (.uninitialized, 0x00)
  | .assignAddr a1 => (.addressed, a1)
  | _ => (s.proto, s.deviceId)

/-- The state a command's response is built on: its side effects have happened. -/
def afterEffects (cmd : Command) (s : State) : State :=
  { s with proto := (protoAfter s cmd).1, deviceId := (protoAfter s cmd).2 }

theorem protoAfter_of_ne {cmd : Command} (s : State) (hr : ∀ a, cmd ≠ .reset a)
    (ha : ∀ a, cmd ≠ .assignAddr a) : protoAfter s cmd = (s.proto, s.deviceId) := by
  cases cmd with
  | reset a => exact absurd rfl (hr a)
  | assignAddr a => exact absurd rfl (ha a)
  | _ => rfl

/-- The three ways a command of a frame can go on: its response fits and is appended, it is answered
`UNSUPPORTED`, or it is `RETRANSMIT`. -/
inductive CommandOutcome (cmd : Command) (s : State) : State → Prop
  | answered (body : List Byte) (hcmd : ∀ x, cmd ≠ .unsupported x)
      (hfits : s.txBuf.length + body.length ≤ s.cfg.jvsMaxPayload) :
      CommandOutcome cmd s { afterEffects cmd s with
        txBuf := s.txBuf ++ body, cmdPtr := s.cmdPtr + (encodeCommand s.cfg cmd).length }
  | unsupported (op : Byte) (hcmd : cmd ≠ .retransmit) :
      CommandOutcome cmd s (raiseUnsupported op (afterEffects cmd s))
  | resent (hcmd : cmd = .retransmit) : CommandOutcome cmd s (resend s)

theorem respond_outcome {cmd : Command} (op : Byte) (body : List Byte) (s : State)
    (hx : ∀ x, cmd ≠ .unsupported x) (hr : cmd ≠ .retransmit) :
    CommandOutcome cmd s
      (respond op (encodeCommand s.cfg cmd).length body (afterEffects cmd s)) := by
  rcases respond_cases op (encodeCommand s.cfg cmd).length body (afterEffects cmd s) with
    ⟨hfits, e⟩ | ⟨_, e⟩
  · rw [e]
    exact .answered _ hx hfits
  · rw [e]
    exact .unsupported op hr

theorem execCommand_outcome {cmd : Command} {s t : State} (h : execCommand cmd s = .next t) :
    CommandOutcome cmd s t := by
  cases cmd with
  | unsupported x => exact (onlyIn_eq_next h).2 ▸ .unsupported x (by simp)
  | retransmit => exact (onlyIn_eq_next h).2 ▸ .resent rfl
  | _ => exact (onlyIn_eq_next h).2 ▸ respond_outcome _ _ s (by simp) (by simp)

/-- The commands exist in a `Jvs` build only (10_state.md R40). -/
theorem execCommand_mode {cmd : Command} {s t : State} (h : execCommand cmd s = .next t) :
    s.cfg.mode = .jvs := by
  cases cmd <;> exact (onlyIn_eq_next h).1

/-! ## What reception and a dispatch leave unchanged -/

/-- The registers that neither reception nor a dispatch writes (10_state.md R53). -/
structure KeptByReception (s t : State) : Prop where
  cfg : t.cfg = s.cfg
  db : t.db = s.db
  map : t.map = s.map
  reconfigPending : t.reconfigPending = s.reconfigPending
  reconfigTable : t.reconfigTable = s.reconfigTable
  joyLast : t.joyLast = s.joyLast
  kbdLast : t.kbdLast = s.kbdLast
  sw : t.sw = s.sw
  sys : t.sys = s.sys
  coin : t.coin = s.coin

/-- The registers that a dispatch does not write: the receive registers among them. -/
structure KeptByDispatch (s t : State) : Prop extends KeptByReception s t where
  rx : t.rx = s.rx

theorem KeptByReception.trans {s t u : State} (h : KeptByReception s t) (k : KeptByReception t u) :
    KeptByReception s u where
  cfg := k.cfg.trans h.cfg
  db := k.db.trans h.db
  map := k.map.trans h.map
  reconfigPending := k.reconfigPending.trans h.reconfigPending
  reconfigTable := k.reconfigTable.trans h.reconfigTable
  joyLast := k.joyLast.trans h.joyLast
  kbdLast := k.kbdLast.trans h.kbdLast
  sw := k.sw.trans h.sw
  sys := k.sys.trans h.sys
  coin := k.coin.trans h.coin

theorem KeptByDispatch.trans {s t u : State} (h : KeptByDispatch s t) (k : KeptByDispatch t u) :
    KeptByDispatch s u where
  toKeptByReception := h.toKeptByReception.trans k.toKeptByReception
  rx := k.rx.trans h.rx

theorem KeptByDispatch.refl (s : State) : KeptByDispatch s s := by constructor <;> constructor <;> rfl

theorem endDispatch_kept (s : State) : KeptByDispatch s (endDispatch s) := by
  constructor <;> constructor <;> rfl

theorem CommandOutcome.kept {cmd : Command} {s t : State} (h : CommandOutcome cmd s t) :
    KeptByDispatch s t := by
  cases h with
  | answered body _ _ => constructor <;> constructor <;> rfl
  | unsupported op _ => rw [raiseUnsupported_eq]; constructor <;> constructor <;> rfl
  | resent _ => rw [resend_eq]; constructor <;> constructor <;> rfl

theorem startDispatch_kept (s : State) : KeptByDispatch s (startDispatch s) := by
  rcases startDispatch_cases s with ⟨_, e⟩ | ⟨_, e⟩ <;> rw [e] <;> constructor <;> constructor <;> rfl

theorem walkFrame_kept {n : Nat} {s t : State} (h : walkFrame n s = .next t) :
    KeptByDispatch s t := by
  induction n generalizing s with
  | zero =>
    rw [walkFrame_zero] at h
    obtain rfl := Host.Outcome.next.inj h
    split
    · exact endDispatch_kept s
    · exact .refl s
  | succ n ih =>
    by_cases hphase : s.phase = .walk
    · by_cases hptr : s.cmdPtr < s.rx.count
      · rw [walkFrame_command hphase hptr] at h
        obtain ⟨u, hcmd, hrest⟩ := andThen_eq_next h
        exact (execCommand_outcome hcmd).kept.trans (ih hrest)
      · rw [walkFrame_end hphase (Nat.le_of_not_lt hptr)] at h
        exact Host.Outcome.next.inj h ▸ endDispatch_kept s
    · rw [walkFrame_done hphase] at h
      exact Host.Outcome.next.inj h ▸ .refl s

theorem execJvsDispatch_kept {s t : State} (h : execJvsDispatch s = .next t) :
    KeptByDispatch s t := by
  obtain ⟨u, hstart, hwalk⟩ := andThen_eq_next h
  obtain ⟨_, rfl⟩ := onlyIn_eq_next hstart
  exact (startDispatch_kept s).trans (walkFrame_kept hwalk)

theorem execJvsDispatch_mode {s t : State} (h : execJvsDispatch s = .next t) :
    s.cfg.mode = .jvs := by
  obtain ⟨u, hstart, _⟩ := andThen_eq_next h
  exact (onlyIn_eq_next hstart).1

theorem receiveByte_kept (w : Byte) (s : State) : KeptByReception s (receiveByte w s) := by
  rw [receiveByte_eq]
  constructor <;> rfl

theorem withSerial_kept (l : List (Option Byte)) (s : State) :
    KeptByReception s (s.withSerial l) := by
  constructor <;> rfl

theorem endIteration_kept (s : State) : KeptByReception s (endIteration s) := by
  constructor <;> rfl

/-- The receive loop of a `Jvs` iteration writes what reception and a dispatch write. -/
theorem receiveLoop_kept {l : List (Option Byte)} {s t : State} (h : receiveLoop l s = .next t) :
    KeptByReception s t := by
  induction l generalizing s with
  | nil => exact Host.Outcome.next.inj h ▸ withSerial_kept [] s
  | cons result rest ih =>
    cases result with
    | none =>
      exact Host.Outcome.next.inj h ▸ (withSerial_kept rest s).trans (endIteration_kept _)
    | some b =>
      obtain ⟨u, hbyte, hrest⟩ := andThen_eq_next h
      obtain ⟨_, rfl⟩ := onlyIn_eq_next hbyte
      have hkept := (withSerial_kept rest s).trans (receiveByte_kept b _)
      split at hrest
      · exact hkept.trans (execJvsDispatch_kept hrest).toKeptByReception
      · exact hkept.trans (ih hrest)

/-! ## What a poll in a USB build writes -/

@[simp] theorem framesSent_append (es fs : List Event) :
    framesSent (es ++ fs) = framesSent es ++ framesSent fs :=
  List.filterMap_append

@[simp] theorem framesSent_scanReads (c : Config) (high : List Nat) :
    framesSent (scanReads c high) = [] := by
  simp [framesSent, scanReads]

@[simp] theorem framesSent_sendIfChanged (l : Last) (configured ok : Bool) (ch : Channel)
    (r : List Byte) : framesSent (sendIfChanged l configured ok ch r).2 = [] := by
  rcases sendIfChanged_cases l configured ok ch r with
    ⟨_, _, e⟩ | ⟨_, e⟩ | ⟨_, _, _, e⟩ | ⟨_, _, _, e⟩ <;> rw [e] <;> rfl

theorem offerJoy_eq (p : Nat) (r : List Byte) (s : State) :
    ∃ joyLast es, framesSent es = []
      ∧ offerJoy p r s = { s with joyLast := joyLast, trace := s.trace ++ es } :=
  ⟨_, _, framesSent_sendIfChanged _ _ _ _ _, rfl⟩

theorem offerKbd_eq (r : List Byte) (s : State) :
    ∃ kbdLast es, framesSent es = []
      ∧ offerKbd r s = { s with kbdLast := kbdLast, trace := s.trace ++ es } :=
  ⟨_, _, framesSent_sendIfChanged _ _ _ _ _, rfl⟩

theorem offerJoys_eq (c : Config) (l : List (PlayerActions × Nat)) (s : State) :
    ∃ joyLast es, framesSent es = [] ∧
      l.foldl (fun t e => offerJoy (e.2 + 1) (joyReport c e.1 (e.2 + 1)) t) s
        = { s with joyLast := joyLast, trace := s.trace ++ es } := by
  induction l generalizing s with
  | nil => exact ⟨s.joyLast, [], rfl, by simp⟩
  | cons e l ih =>
    obtain ⟨_, es, hes, h⟩ := offerJoy_eq (e.2 + 1) (joyReport c e.1 (e.2 + 1)) s
    obtain ⟨joyLast, fs, hfs, h'⟩ := ih (offerJoy (e.2 + 1) (joyReport c e.1 (e.2 + 1)) s)
    refine ⟨joyLast, es ++ fs, by simp [hes, hfs], ?_⟩
    rw [List.foldl_cons, h', h, List.append_assoc]

/-- A `POLL` in `Joystick` mode writes `DB`, `JOY_LAST` and the model's own fields, and sends no
frame. -/
theorem pollJoystick_eq (now : Nat) (s : State) :
    ∃ joyLast es, framesSent es = [] ∧ pollJoystick now s = { s with
      db := scanDb s.cfg s.ports.high (timestamp s.cfg now) s.db
      joyLast := joyLast
      trace := s.trace ++ es
      phase := .boundary
      ret := .unit } := by
  obtain ⟨joyLast, es, hes, h⟩ :=
    offerJoys_eq s.cfg (currentActions (scanned now s)).players.zipIdx (scanned now s)
  refine ⟨joyLast, scanReads s.cfg s.ports.high ++ es, by simp [hes], ?_⟩
  rw [pollJoystick, h, ← List.append_assoc]
  rfl

/-- A `POLL` in `Keyboard` mode writes `DB`, `KBD_LAST` and the model's own fields, and sends no
frame. -/
theorem pollKeyboard_eq (now : Nat) (s : State) :
    ∃ kbdLast es, framesSent es = [] ∧ pollKeyboard now s = { s with
      db := scanDb s.cfg s.ports.high (timestamp s.cfg now) s.db
      kbdLast := kbdLast
      trace := s.trace ++ es
      phase := .boundary
      ret := .unit } := by
  obtain ⟨kbdLast, es, hes, h⟩ :=
    offerKbd_eq (kbdReport s.cfg (currentActions (scanned now s))) (scanned now s)
  refine ⟨kbdLast, scanReads s.cfg s.ports.high ++ es, by simp [hes], ?_⟩
  rw [pollKeyboard, h, ← List.append_assoc]
  rfl

/-- What a `POLL` can do, by the mode of the build. -/
theorem execPoll_cases {now : Nat} {s t : State} (h : execPoll now s = .next t) :
    (s.cfg.mode = .joystick ∧ t = pollJoystick now s)
    ∨ (s.cfg.mode = .keyboard ∧ t = pollKeyboard now s)
    ∨ (s.cfg.mode = .jvs ∧ receiveLoop s.ports.serial (pollStart now s) = .next t) := by
  unfold execPoll at h
  split at h
  · exact .inl ⟨‹_›, (Host.Outcome.next.inj h).symm⟩
  · exact .inr (.inl ⟨‹_›, (Host.Outcome.next.inj h).symm⟩)
  · exact .inr (.inr ⟨‹_›, h⟩)

/-! ## What each operation writes -/

/-- The operations of reception (44_jvs_framing.md R191 to R194). -/
inductive IsReception : Instr → Prop
  | jvsRxByte (w : Byte) : IsReception (.jvsRxByte w)
  | sync : IsReception .sync
  | escape (w : Byte) : IsReception (.escape w)

/-- What an operation that answers a next state has written, one case for each row of the access
matrix (10_state.md R53). -/
inductive Effect (s : State) : Instr → State → Prop
  /-- `MAP`, `ENC_JOY` and `ENC_KBD` return a value and write no register. -/
  | returned (i : Instr) (r : Ret) : Effect s i (s.withRet r)
  | scanned (now : Nat) (r : Ret) : Effect s (.scan now) ((scanned now s).withRet r)
  | polled (now : Nat) (t : State) (h : execPoll now s = .next t) : Effect s (.poll now) t
  | reconfigured (table : Table) :
      Effect s (.reconfig table) { s with map := table, reconfigPending := false }
  | received (i : Instr) (r : Rx) (v : Ret) (es : List Event) (hmode : s.cfg.mode = .jvs)
      (hi : IsReception i) : Effect s i { s with rx := r, ret := v, trace := es }
  | dispatched (t : State) (h : execJvsDispatch s = .next t) : Effect s .jvsDispatch t
  /-- `JVS_TX_FRAME` hands a frame to the serial port and writes no register. -/
  | transmitted (i : Instr) (v : Ret) (es : List Event) (hmode : s.cfg.mode = .jvs) :
      Effect s i { s with ret := v, trace := es }
  | switched (player button : Nat) (pressed : Bool) (hmode : s.cfg.mode = .jvs) :
      Effect s (.setSwitch player button pressed) (switchSet player button pressed s)
  | counted (slot : Nat) (hmode : s.cfg.mode = .jvs) :
      Effect s (.incCoin slot) { s with coin := coinsWith s.cfg slot s.coin }
  | command (cmd : Command) (t : State) (h : execCommand cmd s = .next t) :
      Effect s cmd.toInstr t

theorem execMap_eq_next {v : List Bool} {s t : State} (h : execMap v s = .next t) :
    t = s.withRet (.actions (mapActions s.cfg s.map v)) := by
  unfold execMap at h
  split at h
  · exact (Host.Outcome.next.inj h).symm
  · cases h

theorem execEncJoy_eq_next {act : ActionSet} {p : Nat} {s t : State}
    (h : execEncJoy act p s = .next t) : ∃ r, t = s.withRet r := by
  unfold execEncJoy at h
  split at h
  · split at h
    · exact ⟨_, (onlyIn_eq_next h).2⟩
    · cases h
  · cases h

theorem execReconfig_eq_next {table : Table} {s t : State} (h : execReconfig table s = .next t) :
    tableOk s.cfg table = true ∧ t = { s with map := table, reconfigPending := false } := by
  unfold execReconfig at h
  split at h
  · exact ⟨‹_›, (Host.Outcome.next.inj h).symm⟩
  · cases h

theorem execJvsTxFrame_eq_next {dest : Byte} {data : List Byte} {s t : State}
    (h : execJvsTxFrame dest data s = .next t) :
    s.cfg.mode = .jvs ∧ ∃ v es, t = { s with ret := v, trace := es } := by
  unfold execJvsTxFrame at h
  split at h
  · obtain ⟨hmode, rfl⟩ := onlyIn_eq_next h
    exact ⟨hmode, _, _, rfl⟩
  · cases h

/-- Reception of a byte writes the receive registers and the model's own fields. -/
theorem receiveByte_frame (w : Byte) (s : State) :
    ∃ r v es, receiveByte w s = { s with rx := r, ret := v, trace := es } :=
  ⟨_, _, _, receiveByte_eq w s⟩

theorem exec_reception_eq_next {i : Instr} {s t : State} (hi : IsReception i)
    (h : exec i s = .next t) :
    s.cfg.mode = .jvs ∧ ∃ r v es, t = { s with rx := r, ret := v, trace := es } := by
  cases hi with
  | jvsRxByte w =>
    obtain ⟨hmode, rfl⟩ := onlyIn_eq_next h
    exact ⟨hmode, receiveByte_frame w s⟩
  | sync =>
    obtain ⟨hmode, rfl⟩ := onlyIn_eq_next h
    exact ⟨hmode, receiveByte_frame s.cfg.jvsSync s⟩
  | escape w =>
    obtain ⟨hmode, rfl⟩ := onlyIn_eq_next h
    obtain ⟨r, v, es, h1⟩ := receiveByte_frame s.cfg.jvsEscape s
    obtain ⟨r', v', es', h2⟩ := receiveByte_frame w (receiveByte s.cfg.jvsEscape s)
    rw [h2, h1]
    exact ⟨hmode, _, _, _, rfl⟩

theorem Effect.of_reception {i : Instr} {s t : State} (hi : IsReception i)
    (h : exec i s = .next t) : Effect s i t := by
  obtain ⟨hmode, r, v, es, rfl⟩ := exec_reception_eq_next hi h
  exact .received i r v es hmode hi

theorem exec_effect {i : Instr} {s t : State} (h : exec i s = .next t) : Effect s i t := by
  cases i with
  | scan now => exact Host.Outcome.next.inj h ▸ .scanned now _
  | map v => exact execMap_eq_next h ▸ .returned _ _
  | encJoy act p =>
    obtain ⟨r, rfl⟩ := execEncJoy_eq_next h
    exact .returned _ r
  | encKbd act => exact (onlyIn_eq_next h).2 ▸ .returned _ _
  | poll now => exact .polled now t h
  | reconfig table => exact (execReconfig_eq_next h).2 ▸ .reconfigured table
  | jvsRxByte w => exact .of_reception (.jvsRxByte w) h
  | sync => exact .of_reception .sync h
  | escape w => exact .of_reception (.escape w) h
  | jvsDispatch => exact .dispatched t h
  | jvsTxFrame dest data =>
    obtain ⟨hmode, v, es, rfl⟩ := execJvsTxFrame_eq_next h
    exact .transmitted _ v es hmode
  | setSwitch player button pressed =>
    obtain ⟨hmode, rfl⟩ := onlyIn_eq_next h
    exact .switched player button pressed hmode
  | incCoin slot =>
    obtain ⟨hmode, rfl⟩ := onlyIn_eq_next h
    exact .counted slot hmode
  | reset a1 => exact .command (.reset a1) t h
  | assignAddr a1 => exact .command (.assignAddr a1) t h
  | ioIdent => exact .command .ioIdent t h
  | cmdRev => exact .command .cmdRev t h
  | jvsRev => exact .command .jvsRev t h
  | commVer => exact .command .commVer t h
  | featChk => exact .command .featChk t h
  | readSwitches a1 a2 => exact .command (.readSwitches a1 a2) t h
  | readCoins a1 => exact .command (.readCoins a1) t h
  | retransmit => exact .command .retransmit t h
  | unsupported x => exact .command (.unsupported x) t h

/-! ## The access matrix -/

/-- A `POLL` in `Jvs` mode writes what its scan, its switches and its receive loop write. -/
theorem jvsPoll_kept {now : Nat} {s t : State}
    (h : receiveLoop s.ports.serial (pollStart now s) = .next t) :
    t.cfg = s.cfg ∧ t.sys = s.sys ∧ t.reconfigTable = s.reconfigTable ∧ t.map = s.map
      ∧ t.reconfigPending = s.reconfigPending ∧ t.joyLast = s.joyLast ∧ t.kbdLast = s.kbdLast
      ∧ t.coin = s.coin := by
  have hkept := receiveLoop_kept h
  obtain ⟨sw, e⟩ := pollStart_eq now s
  rw [e] at hkept
  exact ⟨hkept.cfg, hkept.sys, hkept.reconfigTable, hkept.map, hkept.reconfigPending,
    hkept.joyLast, hkept.kbdLast, hkept.coin⟩

/-- `last_tx` after a command: as it was, or the one status byte `UNSUPPORTED` (log 19). -/
theorem CommandOutcome.lastTx {cmd : Command} {s t : State} (h : CommandOutcome cmd s t) :
    t.lastTx = s.lastTx
      ∨ cmd ≠ .retransmit ∧ t.lastTx = ⟨true, [s.cfg.statusUnsupported]⟩ ∧ t.phase = .boundary := by
  cases h with
  | answered body _ _ => exact .inl rfl
  | unsupported op hcmd => rw [raiseUnsupported_eq]; exact .inr ⟨hcmd, rfl, rfl⟩
  | resent _ => rw [resend_eq]; exact .inl rfl

/-- Only `RESET` and `ASSIGN_ADDR` reach the protocol registers. -/
theorem CommandOutcome.proto_of_ne {cmd : Command} {s t : State} (h : CommandOutcome cmd s t)
    (hr : ∀ a, cmd ≠ .reset a) (ha : ∀ a, cmd ≠ .assignAddr a) :
    t.proto = s.proto ∧ t.deviceId = s.deviceId := by
  have hproto := protoAfter_of_ne s hr ha
  cases h with
  | answered body _ _ => simp [afterEffects, hproto]
  | unsupported op _ => simp [raiseUnsupported_eq, afterEffects, hproto]
  | resent _ => simp [resend_eq]

/-- Settles O57, by what each operation writes (`exec_effect`): a register a clause speaks of is either
unchanged, or the clause's premise excludes the operation. -/
theorem accessMatrix : Obligations.AccessMatrix := by
  intro i s t noPoll noJvsPoll hnoPoll hnoJvsPoll h
  cases exec_effect h with
  | returned i r => simp
  | scanned now r => simp [scanned]
  | reconfigured table => simp
  | received i r v es hmode hi => cases hi <;> simp
  | transmitted i v es hmode => simp
  | switched player button pressed hmode => simp [switchSet]
  | counted slot hmode => simp
  | dispatched t h =>
    have hkept := execJvsDispatch_kept h
    simp [hkept.cfg, hkept.sys, hkept.reconfigTable, hkept.db, hkept.map, hkept.reconfigPending,
      hkept.joyLast, hkept.kbdLast, hkept.rx, hkept.sw, hkept.coin]
  | command cmd t h =>
    have hout := execCommand_outcome h
    have hkept := hout.kept
    simp [hkept.cfg, hkept.sys, hkept.reconfigTable, hkept.db, hkept.map, hkept.reconfigPending,
      hkept.joyLast, hkept.kbdLast, hkept.rx, hkept.sw, hkept.coin]
    exact ⟨fun _ _ hr ha => hout.proto_of_ne (fun a e => hr a (e ▸ rfl)) (fun a e => ha a (e ▸ rfl)),
      fun _ _ => hout.lastTx.imp_right fun hrejected => ⟨cmd, rfl, hrejected⟩⟩
  | polled now t h =>
    have hpoll : ¬ noPoll := fun hn => hnoPoll.mp hn now rfl
    rcases execPoll_cases h with ⟨hmode, rfl⟩ | ⟨hmode, rfl⟩ | ⟨hmode, hloop⟩
    · obtain ⟨joyLast, es, _, e⟩ := pollJoystick_eq now s
      rw [e]
      simp [hpoll, hmode]
    · obtain ⟨kbdLast, es, _, e⟩ := pollKeyboard_eq now s
      rw [e]
      simp [hpoll, hmode]
    · obtain ⟨hcfg, hsys, htable, hmap, hpending, hjoy, hkbd, hcoin⟩ := jvsPoll_kept hloop
      simp [hnoJvsPoll, hpoll, hmode, hcfg, hsys, htable, hmap, hpending, hjoy, hkbd, hcoin]

/-- Settles O58: the operations that write a JVS register or send a frame answer in a `Jvs` build
only; the others write none, and their records hold no frame. -/
theorem usbBuildsHaveNoJvsState : Obligations.UsbBuildsHaveNoJvsState := by
  intro i s t husb h
  cases exec_effect h with
  | returned i r => simp
  | scanned now r => simp [scanned]
  | reconfigured table => simp
  | received i r v es hmode hi => exact absurd hmode husb
  | transmitted i v es hmode => exact absurd hmode husb
  | switched player button pressed hmode => exact absurd hmode husb
  | counted slot hmode => exact absurd hmode husb
  | dispatched t h => exact absurd (execJvsDispatch_mode h) husb
  | command cmd t h => exact absurd (execCommand_mode h) husb
  | polled now t h =>
    rcases execPoll_cases h with ⟨_, rfl⟩ | ⟨_, rfl⟩ | ⟨hmode, _⟩
    · obtain ⟨joyLast, es, hes, e⟩ := pollJoystick_eq now s
      rw [e]
      simp [hes]
    · obtain ⟨kbdLast, es, hes, e⟩ := pollKeyboard_eq now s
      rw [e]
      simp [hes]
    · exact absurd hmode husb

/-- No operation but `INC_COIN` writes `COIN` (10_state.md R53). -/
theorem exec_coin_of_ne {i : Instr} {s t : State} (h : exec i s = .next t)
    (hi : ∀ slot, i ≠ .incCoin slot) : t.coin = s.coin := by
  obtain ⟨_, _, _, _, _, _, _, _, _, hcoin, _⟩ :=
    accessMatrix i s t _ _ Iff.rfl Iff.rfl h
  exact hcoin hi

/-- A counter after `INC_COIN` (45_jvs_commands.md R246). -/
theorem coinsWith_getElem? {c : Config} {coin : List Nat} {k n : Nat} (slot : Nat)
    (hk : coin[k]? = some n) :
    (coinsWith c slot coin)[k]? = some (if slot < c.coinSlots ∧ k = slot
      then min (n + 1) c.jvsCoinMax else n) := by
  unfold coinsWith
  split <;> simp [List.getElem?_modify, *, eq_comm]

/-- Settles O59: `INC_COIN` advances one counter to the saturation bound, and no other operation
writes `COIN`. -/
theorem coinsNeverGoDown : Obligations.CoinsNeverGoDown := by
  intro i s t ⟨_, _, _, hmax⟩ h k n hk
  have hn : n ≤ s.cfg.jvsCoinMax := hmax n (List.mem_of_getElem? hk)
  by_cases hi : ∃ slot, i = .incCoin slot
  · obtain ⟨slot, rfl⟩ := hi
    obtain ⟨_, rfl⟩ := onlyIn_eq_next h
    refine ⟨_, coinsWith_getElem? slot hk, ?_⟩
    split <;> omega
  · exact ⟨n, exec_coin_of_ne h (fun slot e => hi ⟨slot, e⟩) ▸ hk, le_rfl, hn⟩

/-! ## The refusal of a record that is no configuration -/

/-- A result other than the refusal of the parameter record. -/
abbrev NotBadConfiguration (r : Result) : Prop := r ≠ .refused .badConfiguration

theorem notBad_onlyIn (m : Mode) (s t : State) : NotBadConfiguration (onlyIn m s t) := by
  unfold onlyIn
  split <;> simp

theorem notBad_andThen {r : Result} {k : State → Result} (hr : NotBadConfiguration r)
    (hk : ∀ s, NotBadConfiguration (k s)) : NotBadConfiguration (andThen r k) := by
  cases r with
  | next s => exact hk s
  | fault f => cases f
  | refused e => exact hr

theorem notBad_execCommand (cmd : Command) (s : State) :
    NotBadConfiguration (execCommand cmd s) := by
  cases cmd <;> exact notBad_onlyIn .jvs s _

theorem notBad_walkFrame (n : Nat) (s : State) : NotBadConfiguration (walkFrame n s) := by
  induction n generalizing s with
  | zero => simp [walkFrame_zero]
  | succ n ih =>
    by_cases hphase : s.phase = .walk
    · by_cases hptr : s.cmdPtr < s.rx.count
      · rw [walkFrame_command hphase hptr]
        exact notBad_andThen (notBad_execCommand _ s) ih
      · simp [walkFrame_end hphase (Nat.le_of_not_lt hptr)]
    · simp [walkFrame_done hphase]

theorem notBad_execJvsDispatch (s : State) : NotBadConfiguration (execJvsDispatch s) :=
  notBad_andThen (notBad_onlyIn .jvs s _) (notBad_walkFrame _)

theorem notBad_receiveLoop (l : List (Option Byte)) (s : State) :
    NotBadConfiguration (receiveLoop l s) := by
  induction l generalizing s with
  | nil => simp [receiveLoop]
  | cons result rest ih =>
    cases result with
    | none => simp [receiveLoop]
    | some b =>
      refine notBad_andThen (notBad_onlyIn .jvs _ _) fun t => ?_
      split
      · exact notBad_execJvsDispatch t
      · exact ih t

theorem notBad_execPoll (now : Nat) (s : State) : NotBadConfiguration (execPoll now s) := by
  unfold execPoll
  split
  · simp
  · simp
  · exact notBad_receiveLoop _ _

theorem notBad_execEncJoy (act : ActionSet) (p : Nat) (s : State) :
    NotBadConfiguration (execEncJoy act p s) := by
  unfold execEncJoy
  split
  · split
    · exact notBad_onlyIn .joystick s _
    · simp
  · simp

/-- No operation refuses a parameter record: that refusal is the step's own (log 23). -/
theorem notBad_exec (i : Instr) (s : State) : NotBadConfiguration (exec i s) := by
  cases i with
  | scan now => simp [execScan_eq]
  | map v => simp only [exec, execMap]; split <;> simp
  | encJoy act p => exact notBad_execEncJoy act p s
  | encKbd act => exact notBad_onlyIn .keyboard s _
  | poll now => exact notBad_execPoll now s
  | reconfig table => simp only [exec, execReconfig]; split <;> simp
  | jvsDispatch => exact notBad_execJvsDispatch s
  | jvsTxFrame dest data =>
    simp only [exec, execJvsTxFrame]
    split
    · exact notBad_onlyIn .jvs s _
    · simp
  | _ => exact notBad_onlyIn .jvs s _

theorem notBad_requestReconfig (table : Table) (s : State) :
    NotBadConfiguration (requestReconfig table s) := by
  rcases requestReconfig_cases table s with ⟨_, _, e⟩ | ⟨_, _, _, e⟩ | ⟨_, e⟩ <;> simp [e]

theorem notBad_pollTurn (now : Nat) (s : State) : NotBadConfiguration (pollTurn now s) := by
  unfold pollTurn
  split
  · exact notBad_exec _ s
  · exact notBad_exec _ s
  · simp

theorem notBad_boundaryStep (s : State) : NotBadConfiguration (boundaryStep s) := by
  unfold boundaryStep
  split
  · exact notBad_exec _ s
  · split
    · exact notBad_pollTurn _ _
    · exact notBad_exec _ _
    · exact notBad_exec _ _
    · exact notBad_requestReconfig _ _
    · simp
    · simp

theorem notBad_listenStep (s : State) : NotBadConfiguration (listenStep s) := by
  unfold listenStep
  split
  case h_2 table _ => exact notBad_requestReconfig table _
  all_goals simp

theorem notBad_receiveStep (s : State) : NotBadConfiguration (receiveStep s) := by
  unfold receiveStep
  split
  · exact notBad_listenStep s
  · simp
  · exact notBad_andThen (notBad_exec _ _) (by simp)

theorem notBad_walkStep (s : State) : NotBadConfiguration (walkStep s) := by
  unfold walkStep
  split
  · exact notBad_exec _ s
  · simp

/-- With a configuration the step is the sequencer's, by where it stands (46_pipeline.md R260,
R263). -/
theorem step_of_wf {s : State} (h : s.cfg.wf = true) :
    (s.phase = .boundary ∧ step s = boundaryStep s) ∨ (s.phase = .receive ∧ step s = receiveStep s)
      ∨ (s.phase = .walk ∧ step s = walkStep s) := by
  unfold step
  rw [if_pos h]
  cases s.phase with
  | boundary => exact .inl ⟨rfl, rfl⟩
  | receive => exact .inr (.inl ⟨rfl, rfl⟩)
  | walk => exact .inr (.inr ⟨rfl, rfl⟩)

/-- Settles O19: nothing the sequencer does with a configuration is refused so (`notBad_exec`), and
every other record is refused before it. -/
theorem stepRefusesOtherConfigurations : Obligations.StepRefusesOtherConfigurations := by
  intro s
  refine ⟨fun hbad => ?_, Scope.step_of_wf_eq_false⟩
  by_contra hwf
  rcases step_of_wf (Bool.of_not_eq_false hwf) with ⟨_, e⟩ | ⟨_, e⟩ | ⟨_, e⟩
  · exact notBad_boundaryStep s (e ▸ hbad)
  · exact notBad_receiveStep s (e ▸ hbad)
  · exact notBad_walkStep s (e ▸ hbad)

/-! ## The machine right after reset -/

theorem tableOk_disabledTable (c : Config) : tableOk c (disabledTable c) = true := by
  simp [tableOk, disabledTable, Func.ok]

/-- Settles O9: the lists of registers are replicas of the reset value, and the rest is what
`State.resetWith` writes. -/
theorem resetValues : Obligations.ResetValues := by
  intro c
  refine ⟨fun _ => List.eq_of_mem_replicate, List.length_replicate, ?_, rfl, ?_, rfl, rfl, rfl, rfl,
    rfl, rfl, rfl, rfl, rfl, rfl, rfl, ?_, rfl, fun _ => List.eq_of_mem_replicate, rfl, rfl⟩
  · intro row hrow f hf
    obtain rfl := List.eq_of_mem_replicate hrow
    exact List.eq_of_mem_replicate hf
  · intro l hl
    exact List.eq_of_mem_replicate hl ▸ rfl
  · intro row hrow b hb
    obtain rfl := List.eq_of_mem_replicate hrow
    exact List.eq_of_mem_replicate hb

/-- Settles O6: every register is a replica of a value in range, or such a value itself. -/
theorem resetMeetsInvariant : Obligations.ResetMeetsInvariant := by
  intro c hwf
  have hdb : (State.resetWith c).dbOk :=
    ⟨List.length_replicate, List.forall_mem_replicate.mpr (.inr (Nat.two_pow_pos c.tsWidth))⟩
  have htables : (State.resetWith c).tablesOk := ⟨tableOk_disabledTable c, tableOk_disabledTable c⟩
  have hlast : (State.resetWith c).lastOk :=
    ⟨List.length_replicate, List.forall_mem_replicate.mpr (.inr nofun), nofun⟩
  have hrx : (State.resetWith c).rxOk :=
    ⟨List.length_replicate, Nat.zero_le _, Nat.le_refl 0, nofun, fun _ => rfl⟩
  have htx : (State.resetWith c).txOk := ⟨Nat.zero_le _, nofun, nofun⟩
  have hinputs : (State.resetWith c).inputsOk :=
    ⟨List.length_replicate, List.forall_mem_replicate.mpr (.inr List.length_replicate),
      List.length_replicate, List.forall_mem_replicate.mpr (.inr (Nat.zero_le _))⟩
  exact ⟨hwf, hdb, htables, hlast, hrx, htx, ⟨fun _ => rfl, rfl⟩, hinputs, fun h => absurd rfl h⟩

end Sys2Proof.Proofs.Registers
end

section
/-! The invariant of 10_state.md section 2 to 6: every operation the sequencer runs keeps it. -/

namespace Sys2Proof.Proofs.Invariant

open Sys2Proof Sys2Proof.Machine Sys2Proof.Proofs.Registers

/-! ## Updates of the model's own fields

`State.Inv` does not read the ports, the script, the tick, the returned value and the record, so an
update of those has the invariant by unfolding alone. -/

theorem inv_endIteration {s : State} (h : s.Inv) : (endIteration s).Inv := by
  obtain ⟨hwf, hdb, htables, hlast, hrx, ⟨htx, hlastTx, _⟩, hproto, hinputs, _⟩ := h
  exact ⟨hwf, hdb, htables, hlast, hrx, ⟨htx, hlastTx, nofun⟩, hproto, hinputs,
    fun hne => absurd rfl hne⟩

/-! ## The scan and the offers of a poll -/

theorem timestamp_lt (c : Config) (now : Nat) : timestamp c now < 2 ^ c.tsWidth :=
  Nat.mod_lt _ (Nat.two_pow_pos _)

theorem debounce_lastChange_lt {c : Config} {now : Nat} {d : Debounce} (pressed : Bool)
    (hnow : now < 2 ^ c.tsWidth) (hd : d.lastChange < 2 ^ c.tsWidth) :
    (debounce c now pressed d).lastChange < 2 ^ c.tsWidth := by
  unfold debounce
  split
  · exact hnow
  · split
    · exact hnow
    · exact hd

theorem scanDb_lastChange_lt {c : Config} {now : Nat} {db : List Debounce} (high : List Nat)
    (hnow : now < 2 ^ c.tsWidth) (hdb : ∀ d ∈ db, d.lastChange < 2 ^ c.tsWidth) :
    ∀ d ∈ scanDb c high now db, d.lastChange < 2 ^ c.tsWidth := by
  intro d hd
  obtain ⟨e, _, rfl⟩ := List.mem_map.mp hd
  refine debounce_lastChange_lt _ hnow ?_
  rw [List.getD_eq_getElem?_getD]
  cases hget : db[e.2]? with
  | none => exact Nat.two_pow_pos c.tsWidth
  | some d' => exact hdb d' (List.mem_of_getElem? hget)

theorem inv_scanned {s : State} (now : Nat) (h : s.Inv) : (scanned now s).Inv := by
  obtain ⟨hwf, ⟨_, htimes⟩, hrest⟩ := h
  exact ⟨hwf, ⟨scanDb_length _ _ _ _, scanDb_lastChange_lt _ (timestamp_lt _ now) htimes⟩, hrest⟩

/-- A last-sent register whose report, if there is one, has `n` bytes (10_state.md R30, R31). -/
abbrev HoldsReportOf (n : Nat) (l : Last) : Prop := l.valid = true → l.bytes.length = n

theorem sendIfChanged_holdsReport {n : Nat} {l : Last} {r : List Byte} (configured ok : Bool)
    (ch : Channel) (hl : HoldsReportOf n l) (hr : r.length = n) :
    HoldsReportOf n (sendIfChanged l configured ok ch r).1 := by
  rcases sendIfChanged_cases l configured ok ch r with
    ⟨_, _, e⟩ | ⟨_, e⟩ | ⟨_, _, _, e⟩ | ⟨_, _, _, e⟩ <;> rw [e]
  · exact hl
  · exact hl
  · exact fun _ => hr
  · exact hl

theorem getD_holdsReport {n : Nat} {ls : List Last} (k : Nat) (h : ∀ l ∈ ls, HoldsReportOf n l) :
    HoldsReportOf n (ls.getD k Last.none) := by
  rw [List.getD_eq_getElem?_getD]
  cases hget : ls[k]? with
  | none => exact nofun
  | some l => exact h l (List.mem_of_getElem? hget)

theorem joyReport_length (c : Config) (a : PlayerActions) (p : Nat) :
    (joyReport c a p).length = joyReportLength c := by
  unfold joyReport joyReportLength
  split <;> rfl

theorem inv_offerJoy {s : State} {r : List Byte} (p : Nat) (hr : r.length = joyReportLength s.cfg)
    (h : s.Inv) : (offerJoy p r s).Inv := by
  obtain ⟨hwf, hdb, htables, ⟨hplayers, hjoy, hkbd⟩, hrest⟩ := h
  refine ⟨hwf, hdb, htables, ⟨List.length_set.trans hplayers, ?_, hkbd⟩, hrest⟩
  intro l hl
  rcases List.mem_or_eq_of_mem_set hl with hmem | rfl
  · exact hjoy l hmem
  · exact sendIfChanged_holdsReport _ _ _ (getD_holdsReport _ hjoy) hr

theorem takeSlot_length_le {c : Config} {n : Nat} {filled : List Byte} (k : Byte)
    (h : filled.length ≤ n) : (takeSlot c n filled k).length ≤ n := by
  unfold takeSlot
  split_ifs with _ _ _ hroom
  · exact h
  · exact h
  · exact h
  · simpa using hroom
  · exact h

theorem slotKeys_length (c : Config) (n : Nat) (act : ActionSet) :
    (slotKeys c n act).length = n := by
  have hfilled : (act.keyseq.foldl (takeSlot c n) []).length ≤ n :=
    List.foldlRecOn act.keyseq (takeSlot c n) (motive := fun l => l.length ≤ n) (Nat.zero_le n)
      fun _ hl k _ => takeSlot_length_le k hl
  simp only [slotKeys, List.length_append, List.length_replicate]
  omega

theorem bitmapKeys_length (c : Config) (bits : Nat) (act : ActionSet) :
    (bitmapKeys c bits act).length = bits / 8 := by
  simp [bitmapKeys]

theorem kbdReport_length (c : Config) (act : ActionSet) :
    (kbdReport c act).length = kbdReportLength c := by
  unfold kbdReport kbdReportLength keyArray
  cases c.kbdPolicy <;> cases c.kbdHasReportId <;>
    simp [slotKeys_length, bitmapKeys_length]

theorem inv_offerKbd {s : State} {r : List Byte} (hr : r.length = kbdReportLength s.cfg)
    (h : s.Inv) : (offerKbd r s).Inv := by
  obtain ⟨hwf, hdb, htables, ⟨hplayers, hjoy, hkbd⟩, hrest⟩ := h
  exact ⟨hwf, hdb, htables, ⟨hplayers, hjoy, sendIfChanged_holdsReport _ _ _ hkbd hr⟩, hrest⟩

theorem inv_offerJoys {c : Config} (l : List (PlayerActions × Nat)) {s : State} (hcfg : s.cfg = c)
    (h : s.Inv) :
    (l.foldl (fun t e => offerJoy (e.2 + 1) (joyReport c e.1 (e.2 + 1)) t) s).Inv := by
  induction l generalizing s with
  | nil => exact h
  | cons e l ih => exact ih hcfg (inv_offerJoy _ (hcfg ▸ joyReport_length c _ _) h)

theorem inv_pollJoystick {s : State} (now : Nat) (h : s.Inv) : (pollJoystick now s).Inv :=
  inv_endIteration (inv_offerJoys _ rfl (inv_scanned now h))

theorem inv_pollKeyboard {s : State} (now : Nat) (h : s.Inv) : (pollKeyboard now s).Inv :=
  inv_endIteration (inv_offerKbd (kbdReport_length s.cfg _) (inv_scanned now h))

/-! ## The switches and the coins -/

theorem switchesWith_dimensions {c : Config} {sw : List (List Byte)} (player button : Nat)
    (pressed : Bool) (hrows : ∀ row ∈ sw, row.length = c.switchBytes) :
    (switchesWith c player button pressed sw).length = sw.length
      ∧ ∀ row ∈ switchesWith c player button pressed sw, row.length = c.switchBytes := by
  unfold switchesWith
  split
  · refine ⟨List.length_modify .., fun row hrow => ?_⟩
    obtain ⟨k, hk, rfl⟩ := List.getElem_of_mem hrow
    rw [List.getElem_modify]
    split
    · simpa using hrows _ (List.getElem_mem _)
    · exact hrows _ (List.getElem_mem _)
  · exact ⟨rfl, hrows⟩

theorem inv_switchSet {s : State} (player button : Nat) (pressed : Bool) (h : s.Inv) :
    (switchSet player button pressed s).Inv := by
  obtain ⟨hwf, hdb, htables, hlast, hrx, htx, hproto, ⟨hplayers, hrows, hcoins⟩, hphase⟩ := h
  obtain ⟨hlength, hrows'⟩ := switchesWith_dimensions player button pressed hrows
  exact ⟨hwf, hdb, htables, hlast, hrx, htx, hproto, ⟨hlength.trans hplayers, hrows', hcoins⟩,
    hphase⟩

theorem inv_glueInput {s : State} (e : Input × Bool) (h : s.Inv) : (glueInput s e).Inv := by
  unfold glueInput
  split
  · exact inv_switchSet _ _ _ h
  · exact h

theorem inv_updateSwitches {s : State} (v : List Bool) (h : s.Inv) : (updateSwitches v s).Inv :=
  List.foldlRecOn (motive := State.Inv) _ glueInput h fun _ ht e _ => inv_glueInput e ht

theorem inv_receivePhase {s : State} (hmode : s.cfg.mode = .jvs) (h : s.Inv) :
    (s.withPhase .receive).Inv := by
  obtain ⟨hwf, hdb, htables, hlast, hrx, ⟨htx, hlastTx, _⟩, hproto, hinputs, _⟩ := h
  exact ⟨hwf, hdb, htables, hlast, hrx, ⟨htx, hlastTx, nofun⟩, hproto, hinputs, fun _ => hmode⟩

theorem inv_pollStart {s : State} (now : Nat) (hmode : s.cfg.mode = .jvs) (h : s.Inv) :
    (pollStart now s).Inv := by
  refine inv_receivePhase ?_ (inv_updateSwitches _ (inv_scanned now h))
  obtain ⟨sw, e⟩ := updateSwitches_frame (stableVector (scanned now s)) (scanned now s)
  rw [e]
  exact hmode

theorem coinsWith_range {c : Config} {coin : List Nat} (slot : Nat)
    (hmax : ∀ n ∈ coin, n ≤ c.jvsCoinMax) :
    (coinsWith c slot coin).length = coin.length
      ∧ ∀ n ∈ coinsWith c slot coin, n ≤ c.jvsCoinMax := by
  unfold coinsWith
  split
  · refine ⟨List.length_modify .., fun n hn => ?_⟩
    obtain ⟨k, hk, rfl⟩ := List.getElem_of_mem hn
    rw [List.getElem_modify]
    split
    · exact Nat.min_le_right _ _
    · exact hmax _ (List.getElem_mem _)
  · exact ⟨rfl, hmax⟩

theorem inv_incCoin {s : State} (slot : Nat) (h : s.Inv) :
    State.Inv { s with coin := coinsWith s.cfg slot s.coin } := by
  obtain ⟨hwf, hdb, htables, hlast, hrx, htx, hproto, ⟨hplayers, hrows, hslots, hmax⟩, hphase⟩ := h
  obtain ⟨hlength, hmax'⟩ := coinsWith_range slot hmax
  exact ⟨hwf, hdb, htables, hlast, hrx, htx, hproto,
    ⟨hplayers, hrows, hlength.trans hslots, hmax'⟩, hphase⟩

/-! ## The mapping table and power-on -/

theorem inv_reconfigured {s : State} {table : Table} (htable : tableOk s.cfg table = true)
    (h : s.Inv) : State.Inv { s with map := table, reconfigPending := false } := by
  obtain ⟨hwf, hdb, ⟨_, hpending⟩, hrest⟩ := h
  exact ⟨hwf, hdb, ⟨htable, hpending⟩, hrest⟩

theorem inv_requestReconfig {s t : State} {table : Table} (h : s.Inv)
    (hnext : requestReconfig table s = .next t) : t.Inv := by
  rcases requestReconfig_cases table s with ⟨htable, _, e⟩ | ⟨_, _, _, e⟩ | ⟨_, e⟩ <;>
    rw [e] at hnext
  · obtain rfl := Host.Outcome.next.inj hnext
    obtain ⟨hwf, hdb, ⟨hmap, _⟩, hrest⟩ := h
    exact ⟨hwf, hdb, ⟨hmap, htable⟩, hrest⟩
  · cases hnext
  · cases hnext

/-- Power-on leaves the reset state of the same record, but for fields `State.Inv` does not read. -/
theorem inv_powerOn {s : State} (h : s.Inv) : (powerOn s).Inv := by
  obtain ⟨hwf, _⟩ := h
  exact resetMeetsInvariant s.cfg hwf

/-! ## Reception -/

/-- `State.rxOk` as a property of the receive registers alone. -/
structure RxInRange (c : Config) (r : Rx) : Prop where
  buf : r.buf.length = c.jvsMaxPayload
  need : r.need ≤ c.jvsMaxPayload
  count : r.count ≤ r.need
  data : r.state = .getData → r.count < r.need
  escape : r.state = .waitSync → r.escape = false

theorem rxOk_iff {s : State} : s.rxOk ↔ RxInRange s.cfg s.rx :=
  ⟨fun ⟨hbuf, hneed, hcount, hdata, hescape⟩ => ⟨hbuf, hneed, hcount, hdata, hescape⟩,
    fun ⟨hbuf, hneed, hcount, hdata, hescape⟩ => ⟨hbuf, hneed, hcount, hdata, hescape⟩⟩

theorem rxSync_inRange {c : Config} {r : Rx} (h : RxInRange c r) : RxInRange c (rxSync r) :=
  ⟨h.buf, h.need, Nat.zero_le _, nofun, nofun⟩

/-- Whatever the decoder's state, it may go back to `WaitSync` with no escape armed. -/
theorem toWaitSync_inRange {c : Config} {r : Rx} (h : RxInRange c r) (he : r.escape = false) :
    RxInRange c { r with state := .waitSync } :=
  ⟨h.buf, h.need, h.count, nofun, fun _ => he⟩

theorem rxLength_inRange {c : Config} {b : Byte} {r : Rx} (h : RxInRange c r)
    (he : r.escape = false) : RxInRange c (rxLength c b r) := by
  unfold rxLength
  split
  · exact ⟨h.buf, h.need, h.count, nofun, fun _ => he⟩
  · rename_i hlength
    simp only [badLength, Bool.or_eq_true, decide_eq_true_eq, not_or, Nat.not_lt] at hlength
    obtain ⟨_, hneed⟩ := hlength
    refine ⟨h.buf, hneed, Nat.zero_le _, fun hdata => Nat.pos_of_ne_zero ?_, fun _ => he⟩
    simpa using hdata

theorem rxData_inRange {c : Config} {b : Byte} {r : Rx} (h : RxInRange c r)
    (hlt : r.count < r.need) (he : r.escape = false) : RxInRange c (rxData b r) := by
  refine ⟨List.length_set.trans h.buf, h.need, hlt, fun hdata => ?_, fun _ => he⟩
  have hne : r.count + 1 ≠ r.need := fun heq => by simp [rxData, heq] at hdata
  exact Nat.lt_of_le_of_ne hlt hne

theorem rxOrdinary_inRange {c : Config} {b : Byte} {r : Rx} (h : RxInRange c r)
    (he : r.escape = false) : RxInRange c (rxOrdinary c b r).1 := by
  unfold rxOrdinary
  split
  · exact h
  · exact ⟨h.buf, h.need, h.count, nofun, nofun⟩
  · exact rxLength_inRange h he
  · exact rxData_inRange h (h.data ‹_›) he
  · exact toWaitSync_inRange h he

theorem disarmed_inRange {c : Config} {r : Rx} (h : RxInRange c r) :
    RxInRange c { r with escape := false } :=
  ⟨h.buf, h.need, h.count, h.data, fun _ => rfl⟩

theorem rxByte_inRange {c : Config} {r : Rx} (w : Byte) (h : RxInRange c r) :
    RxInRange c (rxByte c w r).1 := by
  unfold rxByte
  split
  · exact rxSync_inRange h
  · split
    · exact h
    · rename_i hwait
      split
      · exact ⟨h.buf, h.need, h.count, h.data, fun e => absurd e hwait⟩
      · exact rxOrdinary_inRange (disarmed_inRange h) rfl

/-- A checksum failure is found in `GetChecksum` alone, and the decoder is then in `WaitSync`
already. -/
theorem rxOrdinary_checksumError {c : Config} {b : Byte} {r : Rx}
    (h : (rxOrdinary c b r).2 = .checksumError) : (rxOrdinary c b r).1.state = .waitSync := by
  unfold rxOrdinary at h ⊢
  cases hs : r.state with
  | getChecksum => rfl
  | _ => simp [hs] at h

theorem rxByte_checksumError {c : Config} {w : Byte} {r : Rx}
    (h : (rxByte c w r).2 = .checksumError) : (rxByte c w r).1.state = .waitSync := by
  unfold rxByte at h ⊢
  split_ifs at h ⊢ <;>
    exact rxOrdinary_checksumError h

theorem receiveByte_rx (w : Byte) (s : State) : (receiveByte w s).rx = (rxByte s.cfg w s.rx).1 := by
  rw [receiveByte_eq]
  dsimp only
  split
  · rename_i h
    rw [← rxByte_checksumError h]
  · rfl

theorem inv_receiveByte {s : State} (w : Byte) (hphase : s.phase ≠ .walk) (h : s.Inv) :
    (receiveByte w s).Inv := by
  obtain ⟨hwf, hdb, htables, hlast, hrx, ⟨htx, hlastTx, _⟩, hproto, hinputs, hmode⟩ := h
  have hrx' : (receiveByte w s).rxOk := by
    rw [rxOk_iff, receiveByte_rx, (receiveByte_kept w s).cfg]
    exact rxByte_inRange w (rxOk_iff.mp hrx)
  rw [receiveByte_eq] at hrx' ⊢
  exact ⟨hwf, hdb, htables, hlast, hrx', ⟨htx, hlastTx, fun e => absurd e hphase⟩, hproto, hinputs,
    hmode⟩

@[simp] theorem receiveByte_phase (w : Byte) (s : State) : (receiveByte w s).phase = s.phase := by
  rw [receiveByte_eq]

theorem inv_reception {i : Instr} {s t : State} (hi : IsReception i) (hphase : s.phase ≠ .walk)
    (h : s.Inv) (hnext : exec i s = .next t) : t.Inv := by
  cases hi with
  | jvsRxByte w => exact (onlyIn_eq_next hnext).2 ▸ inv_receiveByte w hphase h
  | sync => exact (onlyIn_eq_next hnext).2 ▸ inv_receiveByte _ hphase h
  | escape w =>
    have hfirst := inv_receiveByte s.cfg.jvsEscape hphase h
    have hboth := inv_receiveByte w ((receiveByte_phase _ s).trans_ne hphase) hfirst
    obtain ⟨_, rfl⟩ := onlyIn_eq_next hnext
    exact hboth

theorem wireSymbol_isReception (c : Config) (armed : Bool) (b : Byte) (after : Option Byte) :
    IsReception (wireSymbol c armed b after).1 := by
  rcases wireSymbol_cases c armed b after with ⟨_, e⟩ | ⟨w, _, _, _, _, _, e⟩ | ⟨_, e⟩ <;> rw [e]
  · exact .sync
  · exact .escape w
  · exact .jvsRxByte b

/-! ## A dispatch -/

theorem inv_startDispatch {s : State} (hmode : s.cfg.mode = .jvs) (h : s.Inv) :
    (startDispatch s).Inv := by
  rcases startDispatch_cases s with ⟨_, e⟩ | ⟨_, e⟩
  · obtain ⟨hwf, hdb, htables, hlast, hrx, ⟨_, hlastTx, _⟩, hproto, hinputs, _⟩ := h
    obtain ⟨_, _, _, _, hmax, _⟩ := wf_fixed hwf
    have hone : [s.cfg.statusSuccess].length ≤ s.cfg.jvsMaxPayload := by simp [hmax]
    rw [e]
    exact ⟨hwf, hdb, htables, hlast, hrx,
      ⟨hone, hlastTx, fun _ => ⟨Nat.le_refl 1, Nat.zero_le _⟩⟩, hproto, hinputs, fun _ => hmode⟩
  · rw [e]
    exact inv_endIteration h

theorem inv_endDispatch {s : State} (hwalk : s.phase = .walk) (h : s.Inv) :
    (endDispatch s).Inv := by
  obtain ⟨hwf, hdb, htables, hlast, hrx, ⟨htx, _, hpacket⟩, hproto, hinputs, _⟩ := h
  obtain ⟨hpos, _⟩ := hpacket hwalk
  exact ⟨hwf, hdb, htables, hlast, hrx, ⟨htx, fun _ => ⟨hpos, htx⟩, nofun⟩, hproto, hinputs,
    fun hne => absurd rfl hne⟩

theorem inv_raiseUnsupported {s : State} (op : Byte) (h : s.Inv) : (raiseUnsupported op s).Inv := by
  obtain ⟨hwf, hdb, htables, hlast, hrx, _, hproto, hinputs, _⟩ := h
  obtain ⟨_, _, _, _, hmax, _⟩ := wf_fixed hwf
  have hone : [s.cfg.statusUnsupported].length ≤ s.cfg.jvsMaxPayload := by simp [hmax]
  rw [raiseUnsupported_eq]
  exact ⟨hwf, hdb, htables, hlast, hrx, ⟨hone, fun _ => ⟨Nat.le_refl 1, hone⟩, nofun⟩, hproto,
    hinputs, fun hne => absurd rfl hne⟩

theorem inv_resend {s : State} (h : s.Inv) : (resend s).Inv := by
  rw [resend_eq]
  exact inv_endIteration h

/-- The side effects of a command on the protocol registers: a cleared id is 0x00. -/
theorem inv_afterEffects {s : State} (cmd : Command) (h : s.Inv) : (afterEffects cmd s).Inv := by
  obtain ⟨hwf, hdb, htables, hlast, hrx, htx, ⟨hid, hsys⟩, hrest⟩ := h
  have hid' : (protoAfter s cmd).1 = .uninitialized → (protoAfter s cmd).2 = 0x00 := by
    cases cmd with
    | reset a1 => exact fun _ => rfl
    | assignAddr a1 => exact nofun
    | _ => exact hid
  exact ⟨hwf, hdb, htables, hlast, hrx, htx, ⟨hid', hsys⟩, hrest⟩

/-- The command at `cmd_ptr` of a walk: `cmd_ptr` moves past it and stays inside the frame. -/
theorem inv_command {s t : State} (hwalk : s.phase = .walk) (h : s.Inv)
    (hout : CommandOutcome (commandAt s) s t) : t.Inv := by
  cases hout with
  | answered body hcmd hfits =>
    obtain ⟨hwf, hdb, htables, hlast, hrx, ⟨_, hlastTx, hpacket⟩, hproto, hinputs, hmode⟩ :=
      inv_afterEffects (commandAt s) h
    obtain ⟨hpos, _⟩ := hpacket hwalk
    have hlength : (s.txBuf ++ body).length = s.txBuf.length + body.length := List.length_append
    refine ⟨hwf, hdb, htables, hlast, hrx,
      ⟨hlength.trans_le hfits, hlastTx, fun _ => ⟨?_, commandAt_le hcmd⟩⟩, hproto, hinputs, hmode⟩
    exact hlength ▸ Nat.le_add_right_of_le hpos
  | unsupported op _ => exact inv_raiseUnsupported op (inv_afterEffects _ h)
  | resent _ => exact inv_resend h

/-! ## The step -/

theorem inv_walkStep {s t : State} (hwalk : s.phase = .walk) (h : s.Inv)
    (hnext : walkStep s = .next t) : t.Inv := by
  unfold walkStep at hnext
  split at hnext
  · rw [exec_toInstr] at hnext
    exact inv_command hwalk h (execCommand_outcome hnext)
  · exact Host.Outcome.next.inj hnext ▸ inv_endDispatch hwalk h

theorem inv_symbolStep {s t : State} (b : Byte) (hphase : s.phase ≠ .walk) (h : s.Inv)
    (hnext : symbolStep b s = .next t) : t.Inv := by
  obtain ⟨u, hexec, hafter⟩ := andThen_eq_next hnext
  obtain rfl := Host.Outcome.next.inj hafter
  have hi := wireSymbol_isReception s.cfg s.rx.escape b s.ports.serial[1]?.join
  have hu : u.Inv := inv_reception (s := s.withSerial (s.ports.serial.drop _)) hi hphase h hexec
  obtain ⟨hmode, r, v, es, rfl⟩ := exec_reception_eq_next hi hexec
  unfold afterSymbol
  split
  · exact inv_startDispatch hmode hu
  · exact hu

theorem inv_listenStep {s t : State} (h : s.Inv) (hnext : listenStep s = .next t) : t.Inv := by
  unfold listenStep at hnext
  split at hnext
  case h_1 result _ => exact Host.Outcome.next.inj hnext ▸ h
  case h_2 table _ => exact inv_requestReconfig (s := takeAct s) h hnext
  case h_3 => exact Host.Outcome.next.inj hnext ▸ inv_powerOn (s := takeAct s) h
  all_goals exact Host.Outcome.next.inj hnext ▸ inv_endIteration h

theorem inv_receiveStep {s t : State} (hphase : s.phase = .receive) (h : s.Inv)
    (hnext : receiveStep s = .next t) : t.Inv := by
  unfold receiveStep at hnext
  split at hnext
  · exact inv_listenStep h hnext
  · exact Host.Outcome.next.inj hnext ▸ inv_endIteration (s := s.withSerial _) h
  · exact inv_symbolStep _ (by simp [hphase]) h hnext

theorem inv_pollTurn {s t : State} (now : Nat) (h : s.Inv) (hnext : pollTurn now s = .next t) :
    t.Inv := by
  unfold pollTurn at hnext
  split at hnext
  case h_3 hmode => exact Host.Outcome.next.inj hnext ▸ inv_pollStart now hmode h
  all_goals
    rename_i hmode
    rcases execPoll_cases hnext with ⟨_, rfl⟩ | ⟨_, rfl⟩ | ⟨hjvs, _⟩
    · exact inv_pollJoystick now h
    · exact inv_pollKeyboard now h
    · exact absurd (hmode.symm.trans hjvs) nofun

theorem inv_boundaryStep {s t : State} (h : s.Inv) (hnext : boundaryStep s = .next t) : t.Inv := by
  unfold boundaryStep at hnext
  split at hnext
  · obtain ⟨htable, rfl⟩ := execReconfig_eq_next hnext
    exact inv_reconfigured htable h
  · split at hnext
    case h_1 i _ => exact inv_pollTurn (s := loadPorts i (takeAct s)) _ h hnext
    case h_2 => exact (onlyIn_eq_next hnext).2 ▸ inv_switchSet (s := takeAct s) _ _ _ h
    case h_3 => exact (onlyIn_eq_next hnext).2 ▸ inv_incCoin (s := takeAct s) _ h
    case h_4 => exact inv_requestReconfig (s := takeAct s) h hnext
    case h_5 => exact Host.Outcome.next.inj hnext ▸ h
    case h_6 => exact Host.Outcome.next.inj hnext ▸ inv_powerOn (s := takeAct s) h

/-- Settles O7: a step is one of the sequencer's three, by the phase, and each keeps the
invariant. -/
theorem stepKeepsInvariant : Obligations.StepKeepsInvariant := by
  intro s t h hnext
  have hwf : s.cfg.wf = true := h.1
  rcases step_of_wf hwf with ⟨_, e⟩ | ⟨hphase, e⟩ | ⟨hphase, e⟩ <;> rw [e] at hnext
  · exact inv_boundaryStep h hnext
  · exact inv_receiveStep hphase h hnext
  · exact inv_walkStep hphase h hnext

end Sys2Proof.Proofs.Invariant
end

section
/-! The statements of 20_memory.md. -/

namespace Sys2Proof.Proofs.Memory

open Sys2Proof Sys2Proof.Machine

/-! ## A configuration agent's request -/

/-- A complete table that does not change a pending one is pending from now on (70_reset_and_hazards.md
R326, 10_state.md R48). -/
theorem requestReconfig_of_accepted {table : Table} {s : State} (htable : tableOk s.cfg table = true)
    (hsame : s.reconfigPending = true → table = s.reconfigTable) :
    requestReconfig table s = .next { s with reconfigPending := true, reconfigTable := table } := by
  rcases requestReconfig_cases table s with ⟨_, _, e⟩ | ⟨_, hpending, hne, _⟩ | ⟨hbad, _⟩
  · exact e
  · exact absurd (hsame hpending) hne
  · simp [htable] at hbad

/-- While a table is pending another one is refused (93_implementation_defined.md U7; log 28). -/
theorem requestReconfig_of_changed {table : Table} {s : State} (htable : tableOk s.cfg table = true)
    (hpending : s.reconfigPending = true) (hne : table ≠ s.reconfigTable) :
    requestReconfig table s = .refused .pendingTableChanged := by
  rcases requestReconfig_cases table s with ⟨_, hkept, _⟩ | ⟨_, _, _, e⟩ | ⟨hbad, _⟩
  · exact absurd (hkept hpending) hne
  · exact e
  · simp [htable] at hbad

/-- A table that is not complete is refused, pending table or not (log 12). -/
theorem requestReconfig_of_incomplete {table : Table} {s : State}
    (htable : tableOk s.cfg table = false) :
    requestReconfig table s = .refused .incompleteTable := by
  rcases requestReconfig_cases table s with ⟨hok, _⟩ | ⟨hok, _⟩ | ⟨_, e⟩
  · simp [htable] at hok
  · simp [htable] at hok
  · exact e

/-! ## The receive loop with nothing presented -/

/-- The acts that are taken at the iteration boundary only (70_reset_and_hazards.md R334; log 9). -/
def NeedsBoundary (a : Act) : Prop :=
  (∃ i, a = .poll i) ∨ (∃ player button pressed, a = .setSwitch player button pressed)
    ∨ (∃ slot, a = .incCoin slot)

/-- A receive loop that has used up what the line presented listens to the outside. -/
theorem step_of_listening {s : State} (hwf : s.cfg.wf = true) (hphase : s.phase = .receive)
    (hserial : s.ports.serial = []) : step s = listenStep s := by
  simp [step, receiveStep, hwf, hphase, hserial]

theorem listenStep_of_serial {s : State} {r : Option Byte} (h : nextAct s = .serial r) :
    listenStep s = .next (hear r (takeAct s)) := by
  simp [listenStep, h]

theorem listenStep_of_request {s : State} {table : Table} (h : nextAct s = .request table) :
    listenStep s = requestReconfig table (takeAct s) := by
  simp [listenStep, h]

theorem listenStep_of_powerOn {s : State} (h : nextAct s = .powerOn) :
    listenStep s = .next (powerOn (takeAct s)) := by
  simp [listenStep, h]

/-- The iteration ends as after a time-out, and the act is not taken: it stays the next one. -/
theorem listenStep_of_needsBoundary {s : State} (h : NeedsBoundary (nextAct s)) :
    listenStep s = .next (endIteration s) := by
  rcases h with ⟨_, h⟩ | ⟨_, _, _, h⟩ | ⟨_, h⟩ <;> simp [listenStep, h]

/-- The first result the line presents after it was used up is the only one there. -/
theorem hear_of_serial_nil {s : State} (r : Option Byte) (hserial : s.ports.serial = []) :
    hear r s = { s with ports := { s.ports with serial := [r] } } := by
  simp [hear, State.withSerial, hserial]

/-- Settles O14: the step of a listening block is `listenStep`, which the next act decides; a request
goes on by the table and by what is pending (`requestReconfig_of_accepted` and the two refusals). -/
theorem listeningWaitsForTheOutside : Obligations.ListeningWaitsForTheOutside := by
  intro s hwf hphase hserial
  rw [step_of_listening hwf hphase hserial]
  refine ⟨fun r hact => ?serial, fun table hact => ?request, fun hact => ?powerOn,
    fun hact => ?boundary⟩
  case serial =>
    rw [listenStep_of_serial hact, hear_of_serial_nil (s := takeAct s) r hserial]
    rfl
  case request =>
    rw [listenStep_of_request hact]
    exact ⟨requestReconfig_of_accepted (s := takeAct s),
      requestReconfig_of_changed (s := takeAct s),
      requestReconfig_of_incomplete (s := takeAct s)⟩
  case powerOn => exact listenStep_of_powerOn hact
  case boundary => exact listenStep_of_needsBoundary hact

end Sys2Proof.Proofs.Memory
end

section
/-! The statements of 30_encoding.md. -/

namespace Sys2Proof.Proofs.Encoding

open Sys2Proof Sys2Proof.Machine

/-! ## Commands in the data of a frame -/

/-- What the record promises of the command bytes (00_scope.md R6; D22). -/
theorem wf_ops_nodup {c : Config} (h : c.wf = true) : c.ops.toList.Nodup := by
  simp only [Config.wf, JvsOps.distinct, Bool.and_eq_true, decide_eq_true_eq] at h
  obtain ⟨⟨⟨⟨_, hops⟩, _⟩, _⟩, _⟩ := h
  exact hops

/-- The decoder compares the command byte with the ten in the order of `JvsOps.toList`. A byte of
the ten differs from every one tried before it, which is what `Nodup` says of the reversed list; an
unsupported byte differs from all. -/
theorem decodeCommand_encodeCommand {c : Config} {cmd : Command} (rest : List Byte)
    (hops : c.ops.toList.Nodup) (hwf : cmd.toInstr.wf c = true) :
    decodeCommand c (encodeCommand c cmd ++ rest) = .ok (cmd, rest) := by
  have hlater : c.ops.toList.reverse.Nodup := List.nodup_reverse.mpr hops
  simp only [JvsOps.toList, List.reverse_cons, List.reverse_nil, List.nil_append,
    List.cons_append, List.nodup_cons, List.mem_cons, not_or] at hlater
  cases cmd with
  | unsupported x =>
    simp only [Command.toInstr, Instr.wf, JvsOps.toList, List.mem_cons, not_or,
      decide_eq_true_eq] at hwf
    simp [decodeCommand, encodeCommand, hwf]
  | readSwitches a1 a2 => simp [decodeCommand, encodeCommand, twoArgs, hlater]
  | reset a1 | assignAddr a1 | readCoins a1 => simp [decodeCommand, encodeCommand, oneArg, hlater]
  | ioIdent | cmdRev | jvsRev | commVer | featChk | retransmit =>
    simp [decodeCommand, encodeCommand, hlater]

/-- `cmd` is a value of its type and its bytes stand at the head of `bytes`, before `rest`. -/
def IsHead (c : Config) (bytes : List Byte) (cmd : Command) (rest : List Byte) : Prop :=
  cmd.toInstr.wf c = true ∧ bytes = encodeCommand c cmd ++ rest

theorem isHead_of_noArg {c : Config} {op : Byte} {cmd k : Command} {l rest : List Byte}
    (h : Except.ok (ε := DecodeReject) (k, l) = .ok (cmd, rest))
    (hwf : k.toInstr.wf c = true) (henc : encodeCommand c k = [op]) :
    IsHead c (op :: l) cmd rest := by
  cases h
  exact ⟨hwf, by rw [henc]; rfl⟩

theorem isHead_of_oneArg {c : Config} {op : Byte} {cmd : Command} {k : Byte → Command}
    {l rest : List Byte} (h : oneArg op k l = .ok (cmd, rest))
    (hwf : ∀ a1, (k a1).toInstr.wf c = true) (henc : ∀ a1, encodeCommand c (k a1) = [op, a1]) :
    IsHead c (op :: l) cmd rest := by
  obtain ⟨a1, rfl, rfl⟩ := oneArg_eq_ok h
  exact ⟨hwf a1, by rw [henc]; rfl⟩

theorem isHead_of_twoArgs {c : Config} {op : Byte} {cmd : Command} {k : Byte → Byte → Command}
    {l rest : List Byte} (h : twoArgs op k l = .ok (cmd, rest))
    (hwf : ∀ a1 a2, (k a1 a2).toInstr.wf c = true)
    (henc : ∀ a1 a2, encodeCommand c (k a1 a2) = [op, a1, a2]) :
    IsHead c (op :: l) cmd rest := by
  obtain ⟨a1, a2, rfl, rfl⟩ := twoArgs_eq_ok h
  exact ⟨hwf a1 a2, by rw [henc]; rfl⟩

/-- A byte that reached the decoder's last branch is none of the ten, so it is a well-formed member
of the unsupported class (30_encoding.md R101); in the other branches the command byte is the one
that matched. -/
theorem decodeCommand_isHead {c : Config} {bytes rest : List Byte} {cmd : Command}
    (h : decodeCommand c bytes = .ok (cmd, rest)) : IsHead c bytes cmd rest := by
  cases bytes with
  | nil => cases h
  | cons op l =>
    rw [decodeCommand] at h
    split_ifs at h with hReset hAssign hIdent hCmdRev hJvsRev hCommVer hFeat hSwitches hCoins hRetr
    · exact isHead_of_oneArg h (fun _ => rfl) fun _ => by rw [hReset]; rfl
    · exact isHead_of_oneArg h (fun _ => rfl) fun _ => by rw [hAssign]; rfl
    · exact isHead_of_noArg h rfl (by rw [hIdent]; rfl)
    · exact isHead_of_noArg h rfl (by rw [hCmdRev]; rfl)
    · exact isHead_of_noArg h rfl (by rw [hJvsRev]; rfl)
    · exact isHead_of_noArg h rfl (by rw [hCommVer]; rfl)
    · exact isHead_of_noArg h rfl (by rw [hFeat]; rfl)
    · exact isHead_of_twoArgs h (fun _ _ => rfl) fun _ _ => by rw [hSwitches]; rfl
    · exact isHead_of_oneArg h (fun _ => rfl) fun _ => by rw [hCoins]; rfl
    · exact isHead_of_noArg h rfl (by rw [hRetr]; rfl)
    · have hnone : op ∉ c.ops.toList := by simp [JvsOps.toList, *]
      exact isHead_of_noArg h (by simpa [Command.toInstr, Instr.wf] using hnone) rfl

/-! ## The two encoding spaces -/

theorem encode_toInstr (c : Config) (cmd : Command) :
    encode c cmd.toInstr = some (encodeCommand c cmd) := by
  cases cmd <;> rfl

/-- The operations encoded in a frame's data are the commands (30_encoding.md R100). -/
theorem exists_command_of_space {i : Instr} (h : i.space = some .data) :
    ∃ cmd : Command, i = cmd.toInstr := by
  cases i with
  | reset a1 => exact ⟨.reset a1, rfl⟩
  | assignAddr a1 => exact ⟨.assignAddr a1, rfl⟩
  | ioIdent => exact ⟨.ioIdent, rfl⟩
  | cmdRev => exact ⟨.cmdRev, rfl⟩
  | jvsRev => exact ⟨.jvsRev, rfl⟩
  | commVer => exact ⟨.commVer, rfl⟩
  | featChk => exact ⟨.featChk, rfl⟩
  | readSwitches a1 a2 => exact ⟨.readSwitches a1 a2, rfl⟩
  | readCoins a1 => exact ⟨.readCoins a1, rfl⟩
  | retransmit => exact ⟨.retransmit, rfl⟩
  | unsupported x => exact ⟨.unsupported x, rfl⟩
  | _ => cases h

theorem eq_sync_or_escape_of_space {i : Instr} (h : i.space = some .wire) :
    i = .sync ∨ ∃ w, i = .escape w := by
  cases i with
  | sync => exact .inl rfl
  | escape w => exact .inr ⟨w, rfl⟩
  | _ => cases h

theorem decode_data_of_ok {c : Config} {bytes rest : List Byte} {cmd : Command}
    (h : decodeCommand c bytes = .ok (cmd, rest)) :
    decode c .data bytes = .ok (cmd.toInstr, rest) := by
  simp [decode, h]

theorem decode_data_eq_ok {c : Config} {bytes rest : List Byte} {i : Instr}
    (h : decode c .data bytes = .ok (i, rest)) :
    ∃ cmd, i = cmd.toInstr ∧ decodeCommand c bytes = .ok (cmd, rest) := by
  cases e : decodeCommand c bytes with
  | error r => simp [decode, e] at h
  | ok p =>
    obtain ⟨cmd, rest'⟩ := p
    rw [decode_data_of_ok e] at h
    cases h
    exact ⟨cmd, rfl, rfl⟩

theorem decode_wire_sync (c : Config) (rest : List Byte) :
    decode c .wire (c.jvsSync :: rest) = .ok (.sync, rest) := by
  simp [decode, decodeWire]

theorem decode_wire_escape {c : Config} {w : Byte} (rest : List Byte)
    (hne : c.jvsEscape ≠ c.jvsSync) (hw : w ≠ c.jvsSync) :
    decode c .wire (c.jvsEscape :: w :: rest) = .ok (.escape w, rest) := by
  simp [decode, decodeWire, hne, hw]

theorem jvsEscape_ne_jvsSync {c : Config} (h : c.wf = true) : c.jvsEscape ≠ c.jvsSync := by
  obtain ⟨_, _, hsync, hescape, _⟩ := wf_fixed h
  rw [hsync, hescape]
  decide

/-- Settles O1: in a frame's data by `decodeCommand_encodeCommand`, on the wire by the reading of
each symbol. -/
theorem decodeOfEncodeIsTheInstruction : Obligations.DecodeOfEncodeIsTheInstruction := by
  intro c i sp rest hc hi hsp
  cases sp with
  | data =>
    obtain ⟨cmd, rfl⟩ := exists_command_of_space hsp
    exact ⟨_, encode_toInstr c cmd,
      decode_data_of_ok (decodeCommand_encodeCommand rest (wf_ops_nodup hc) hi)⟩
  | wire =>
    rcases eq_sync_or_escape_of_space hsp with rfl | ⟨w, rfl⟩
    · exact ⟨_, rfl, decode_wire_sync c rest⟩
    · have hw : w ≠ c.jvsSync := bne_iff_ne.mp hi
      exact ⟨_, rfl, decode_wire_escape rest (jvsEscape_ne_jvsSync hc) hw⟩

/-- Settles O2, by the decoder's branches (`decodeCommand_isHead`). -/
theorem encodeOfDecodedCommandIsItsBytes : Obligations.EncodeOfDecodedCommandIsItsBytes := by
  intro c bytes rest i h
  obtain ⟨cmd, rfl, hcmd⟩ := decode_data_eq_ok h
  obtain ⟨hwf, hbytes⟩ := decodeCommand_isHead hcmd
  exact ⟨hwf, _, encode_toInstr c cmd, hbytes⟩

/-! ## Programs -/

theorem disassemble_of_ok {c : Config} {n : Nat} {bytes rest : List Byte} {cmd : Command}
    (h : decodeCommand c bytes = .ok (cmd, rest)) :
    disassemble c (n + 1) bytes = cmd :: disassemble c n rest := by
  simp [disassemble, h]

@[simp] theorem disassemble_nil (c : Config) (n : Nat) : disassemble c n [] = [] := by
  cases n <;> rfl

theorem assemble_cons (c : Config) (cmd : Command) (program : List Command) :
    assemble c (cmd :: program) = encodeCommand c cmd ++ assemble c program :=
  List.flatMap_cons

/-- Settles O3, by induction on the program: its first command is read back with the assembled rest
behind it. -/
theorem assembledProgramReadsBack : Obligations.AssembledProgramReadsBack := by
  intro c program n hc hwf hn
  induction program generalizing n with
  | nil => exact disassemble_nil c n
  | cons cmd program ih =>
    obtain ⟨hcmd, hrest⟩ := List.forall_mem_cons.mp hwf
    obtain ⟨m, rfl⟩ : ∃ m, n = m + 1 := Nat.exists_eq_add_one.mpr (Nat.zero_lt_of_lt hn)
    rw [assemble_cons,
      disassemble_of_ok (decodeCommand_encodeCommand _ (wf_ops_nodup hc) hcmd),
      ih m hrest (Nat.le_of_succ_le_succ hn)]

/-! ## Byte stuffing -/

/-- Wire bytes with no `SYNC`, in which every `ESCAPE` opens a pair (30_encoding.md R83). -/
def IsStuffed (l : List Byte) : Prop :=
  (0xE0 : Byte) ∉ l ∧ ∀ k : Nat, l[k]? = some (0xD0 : Byte) →
    l[k + 1]? = some (0xDF : Byte) ∨ l[k + 1]? = some (0xCF : Byte)

theorem isStuffed_nil : IsStuffed [] := ⟨List.not_mem_nil, fun _ hk => by simp at hk⟩

theorem IsStuffed.cons {b : Byte} {l : List Byte} (h : IsStuffed l) (hsync : b ≠ 0xE0)
    (hescape : b = 0xD0 → l[0]? = some (0xDF : Byte) ∨ l[0]? = some (0xCF : Byte)) :
    IsStuffed (b :: l) := by
  obtain ⟨hmem, hpairs⟩ := h
  refine ⟨List.not_mem_cons_of_ne_of_not_mem hsync.symm hmem, fun k hk => ?_⟩
  cases k with
  | zero => exact hescape (Option.some.inj hk)
  | succ k => exact hpairs k hk

theorem IsStuffed.pair {w : Byte} {l : List Byte} (h : IsStuffed l) (hw : w = 0xDF ∨ w = 0xCF) :
    IsStuffed (0xD0 :: w :: l) := by
  have hplain : w ≠ 0xE0 ∧ w ≠ 0xD0 := by rcases hw with rfl | rfl <;> decide
  obtain ⟨hsync, hescape⟩ := hplain
  exact (h.cons hsync (absurd · hescape)).cons (by decide) fun _ =>
    hw.imp (congrArg some) (congrArg some)

/-- The three forms of a byte after the leading `SYNC` (30_encoding.md R83). -/
theorem stuff_cases {c : Config} (h : c.wf = true) (b : Byte) :
    stuff c b = [0xD0, 0xDF] ∨ stuff c b = [0xD0, 0xCF]
      ∨ (stuff c b = [b] ∧ b ≠ 0xE0 ∧ b ≠ 0xD0) := by
  obtain ⟨_, _, hsync, hescape, _⟩ := wf_fixed h
  rw [stuff, hsync, hescape]
  by_cases h1 : b = 0xE0
  · exact .inl (by rw [h1]; rfl)
  · by_cases h2 : b = 0xD0
    · exact .inr (.inl (by rw [h2]; rfl))
    · exact .inr (.inr ⟨if_neg (not_or.mpr ⟨h1, h2⟩), h1, h2⟩)

theorem isStuffed_flatMap_stuff {c : Config} (h : c.wf = true) (l : List Byte) :
    IsStuffed (l.flatMap (stuff c)) := by
  induction l with
  | nil => exact isStuffed_nil
  | cons b l ih =>
    rw [List.flatMap_cons]
    rcases stuff_cases h b with e | e | ⟨e, hsync, hescape⟩ <;> rw [e]
    · exact ih.pair (.inl rfl)
    · exact ih.pair (.inr rfl)
    · exact ih.cons hsync (absurd · hescape)

theorem stuff_length (c : Config) (b : Byte) :
    1 ≤ (stuff c b).length ∧ (stuff c b).length ≤ 2 := by
  unfold stuff
  split <;> simp

theorem flatMap_stuff_length (c : Config) (l : List Byte) :
    l.length ≤ (l.flatMap (stuff c)).length ∧ (l.flatMap (stuff c)).length ≤ 2 * l.length := by
  induction l with
  | nil => simp
  | cons b l ih =>
    have hb := stuff_length c b
    simp only [List.flatMap_cons, List.length_append, List.length_cons]
    omega

/-- Destination, length and checksum beside the data. -/
theorem frameBody_length (dest : Byte) (data : List Byte) :
    (frameBody dest data).length = data.length + 3 := by
  simp [frameBody]

/-- Settles O38: `stuff` puts out no `SYNC` and opens every `ESCAPE`'s pair, byte by byte, and makes
one or two bytes of each. -/
theorem wireFormIsStuffed : Obligations.WireFormIsStuffed := by
  intro c dest data hc _
  obtain ⟨_, _, hsync, _⟩ := wf_fixed hc
  obtain ⟨hmem, hpairs⟩ := isStuffed_flatMap_stuff hc (frameBody dest data)
  have hlength := flatMap_stuff_length c (frameBody dest data)
  rw [frameBody_length] at hlength
  have hwire : (wireFrame c dest data).length
      = ((frameBody dest data).flatMap (stuff c)).length + 1 := List.length_cons
  exact ⟨_, by rw [wireFrame, hsync], hmem, hpairs, by omega, by omega⟩

/-! ## Words of the opcode table -/

/-- Settles O4: nine closed words under the default record, each decoded by evaluation. -/
theorem tableWordsDecode : Obligations.TableWordsDecode := by
  unfold Obligations.TableWordsDecode
  decide

end Sys2Proof.Proofs.Encoding
end

section
/-! The statements of 40_scan.md. -/

namespace Sys2Proof.Proofs.Scan

open Sys2Proof Sys2Proof.Machine

/-! ## One input of one scan -/

/-- The pin's level against the polarity flag (40_scan.md R122). -/
theorem rawPressed_eq_true_iff (inp : Input) (high : List Nat) (i : Nat) :
    rawPressed inp high i = true ↔ (i ∈ high ↔ inp.activeLow = false) := by
  unfold rawPressed isPressed pinLevel
  cases inp.activeLow <;> by_cases h : i ∈ high <;> simp [h]

/-- The modular difference is never negative, so `elapsed` loses nothing (40_scan.md R123). -/
theorem elapsed_cast (w now last : Nat) :
    (elapsed w now last : Int) = ((now : Int) - last) % ((2 ^ w : Nat) : Int) :=
  Int.toNat_of_nonneg (Int.emod_nonneg _ (Int.natCast_ne_zero.mpr (Nat.two_pow_pos w).ne'))

theorem debounce_of_match {c : Config} {now : Nat} {pressed : Bool} {d : Debounce}
    (h : pressed = d.stable) : debounce c now pressed d = ⟨d.stable, now⟩ :=
  if_pos h

theorem debounce_of_commit {c : Config} {now : Nat} {pressed : Bool} {d : Debounce}
    (h : pressed ≠ d.stable) (ht : c.debounceMs ≤ elapsed c.tsWidth now d.lastChange) :
    debounce c now pressed d = ⟨pressed, now⟩ :=
  (if_neg h).trans (if_pos ht)

theorem debounce_of_hold {c : Config} {now : Nat} {pressed : Bool} {d : Debounce}
    (h : pressed ≠ d.stable) (ht : elapsed c.tsWidth now d.lastChange < c.debounceMs) :
    debounce c now pressed d = d :=
  (if_neg h).trans (if_neg (Nat.not_le.mpr ht))

/-- Once `stable` agrees with the raw value, a scan can only set the timer. -/
theorem debounce_stable_of_match {c : Config} {now : Nat} {pressed : Bool} {d : Debounce}
    (h : pressed = d.stable) : (debounce c now pressed d).stable = pressed := by
  rw [debounce_of_match h, h]

/-- Settles O21: the scan's state is `execScan_eq`, each of its entries is `debounce` of the entry
before, and the three clauses are the three branches of `debounce`. -/
theorem scanDebouncesEveryInput : Obligations.ScanDebouncesEveryInput := by
  intro now s hnow _
  refine ⟨_, execScan_eq now s, rfl, scanDb_length _ _ _ _, fun i inp d pressed hi hd hp => ?_⟩
  obtain rfl : pressed = rawPressed inp s.ports.high i :=
    Bool.eq_iff_iff.mpr (hp.trans (rawPressed_eq_true_iff inp s.ports.high i).symm)
  rw [← elapsed_cast, Int.ofNat_le, Int.ofNat_lt, timestamp_of_lt hnow,
    scanDb_getElem? s.ports.high now hi hd]
  exact ⟨fun h => congrArg some (debounce_of_match h),
    fun h ht => congrArg some (debounce_of_commit h ht),
    fun h ht => congrArg some (debounce_of_hold h ht)⟩

/-! ## Scans over time -/

/-- The first scan of a sequence, seen from one input: it goes through `debounce`, and the other
scans go on from there under the same record. -/
theorem afterScans_cons {s : State} {i now : Nat} {inp : Input} {d : Debounce} (high : List Nat)
    (hi : s.cfg.inputs[i]? = some inp) (hd : s.db[i]? = some d) (hnow : now < 2 ^ s.cfg.tsWidth) :
    ∃ t : State, t.cfg = s.cfg
      ∧ t.db[i]? = some (debounce s.cfg now (rawPressed inp high i) d)
      ∧ ∀ rest, afterScans ((now, high) :: rest) s = afterScans rest t := by
  refine ⟨_, ?_, ?_, fun rest => by rw [afterScans, execScan_eq, andThen_next]⟩
  · rfl
  · rw [timestamp_of_lt hnow]
    exact scanDb_getElem? high now hi hd

/-- A property of one input's registers that `debounce` keeps at every scan of a sequence holds
after the sequence. -/
theorem afterScans_keeps {P : Debounce → Prop} {s : State} {i : Nat} {inp : Input} {d : Debounce}
    {scans : List (Nat × List Nat)} (hi : s.cfg.inputs[i]? = some inp) (hd : s.db[i]? = some d)
    (hnow : ∀ e ∈ scans, e.1 < 2 ^ s.cfg.tsWidth)
    (hkeep : ∀ e ∈ scans, ∀ d, P d → P (debounce s.cfg e.1 (rawPressed inp e.2 i) d)) (h : P d) :
    ∃ t d', afterScans scans s = .next t ∧ t.cfg = s.cfg ∧ t.db[i]? = some d' ∧ P d' := by
  induction scans generalizing s d with
  | nil => exact ⟨s, d, rfl, rfl, hd, h⟩
  | cons e scans ih =>
    obtain ⟨hnow₁, hnows⟩ := List.forall_mem_cons.mp hnow
    obtain ⟨hkeep₁, hkeeps⟩ := List.forall_mem_cons.mp hkeep
    obtain ⟨u, hcfg, hdb, hrest⟩ := afterScans_cons e.2 hi hd hnow₁
    rw [← hcfg] at hi hnows hkeeps ⊢
    rw [hrest]
    exact ih hi hdb hnows hkeeps (hkeep₁ d h)

/-- Settles O22, in three stretches: the scans before the threshold keep the whole entry
`⟨level, t0⟩`, the scan at or past it commits, and those after it keep `stable = !level`. -/
theorem stableFlipsExactlyAtTheThreshold : Obligations.StableFlipsExactlyAtTheThreshold := by
  intro s i inp level t0 now high before after _ hi hd hbefore hnow hraw hlate hafter
  obtain ⟨t, _, hst, htcfg, htdb, rfl⟩ :=
    afterScans_keeps (P := (· = ⟨level, t0⟩)) hi hd (fun e he => (hbefore e he).1)
      (fun e he d hP => by
        subst hP
        obtain ⟨_, hdiffers, hearly⟩ := hbefore e he
        exact debounce_of_hold (hdiffers ▸ Bool.not_ne_self level) hearly)
      rfl
  rw [← htcfg] at hi hnow hlate hafter
  obtain ⟨u, hucfg, hudb, htu⟩ := afterScans_cons high hi htdb hnow
  rw [hraw, debounce_of_commit (Bool.not_ne_self level) hlate] at hudb
  rw [← hucfg] at hi hafter
  obtain ⟨v, d, huv, _, hvdb, hstable⟩ :=
    afterScans_keeps (P := (·.stable = !level)) hi hudb (fun e he => (hafter e he).1)
      (fun e he d hP => by
        obtain ⟨_, hagrees⟩ := hafter e he
        exact (debounce_stable_of_match (hagrees.trans hP.symm)).trans hagrees)
      rfl
  exact ⟨t, u, v, hst, htdb, htu [], hudb, huv, by rw [hvdb]; exact congrArg some hstable⟩

end Sys2Proof.Proofs.Scan
end

section
/-! The statements of 41_map.md. -/

namespace Sys2Proof.Proofs.Map

open Sys2Proof Sys2Proof.Machine

/-! ## One entry of a complete table -/

/-- Every input lies inside `MAP` (00_scope.md R6). -/
theorem wf_input_inside {c : Config} {inp : Input} (h : c.wf = true) (hi : inp ∈ c.inputs) :
    1 ≤ inp.player ∧ inp.player ≤ c.nPlayers ∧ inp.slot < c.maxPins := by
  simp only [Config.wf, Config.inputsOk, Bool.and_eq_true, List.all_eq_true, decide_eq_true_eq] at h
  obtain ⟨⟨⟨⟨⟨⟨⟨_, ⟨_, hinside⟩, _⟩, _⟩, _⟩, _⟩, _⟩, _⟩, _⟩ := h
  exact hinside inp hi

/-- A complete table names a function for every slot inside it, and `tableEntry` reads that one,
never its defaults (10_state.md R27). -/
theorem tableEntry_of_tableOk {c : Config} {t : Table} {p slot : Nat} (ht : tableOk c t = true)
    (hpos : 1 ≤ p) (hp : p ≤ c.nPlayers) (hslot : slot < c.maxPins) :
    ∃ row, t[p - 1]? = some row ∧ row[slot]? = some (tableEntry t p slot) := by
  simp only [tableOk, Bool.and_eq_true, beq_iff_eq, List.all_eq_true] at ht
  obtain ⟨hlen, hrows⟩ := ht
  have hrow : p - 1 < t.length := by omega
  obtain ⟨hpins, _⟩ := hrows _ (List.getElem_mem hrow)
  refine ⟨t[p - 1], List.getElem?_eq_getElem hrow, ?_⟩
  simp [tableEntry, hrow, hpins, hslot]

/-- `tableEntry_of_tableOk` at an input of the configuration. -/
theorem tableEntry_of_input {c : Config} {t : Table} {inp : Input} (hwf : c.wf = true)
    (ht : tableOk c t = true) (hi : inp ∈ c.inputs) :
    ∃ row, t[inp.player - 1]? = some row
      ∧ row[inp.slot]? = some (tableEntry t inp.player inp.slot) := by
  obtain ⟨hpos, hp, hslot⟩ := wf_input_inside hwf hi
  exact tableEntry_of_tableOk ht hpos hp hslot

/-! ## The functions of the pressed inputs -/

theorem mem_pressedFuncs_iff {c : Config} {t : Table} {v : List Bool} {p : Nat} {f : Func} :
    (p, f) ∈ pressedFuncs c t v ↔
      ∃ e ∈ c.inputs.zip v, e.2 = true ∧ e.1.player = p ∧ tableEntry t p e.1.slot = f := by
  simp only [pressedFuncs, List.mem_map, List.mem_filter, Prod.mk.injEq, and_assoc]
  exact exists_congr fun e => and_congr_right fun _ => and_congr_right fun _ =>
    and_congr_right fun hp => by rw [hp]

theorem mem_funcsOf_iff {p : Nat} {f : Func} {fs : List (Nat × Func)} :
    f ∈ funcsOf p fs ↔ (p, f) ∈ fs := by
  simp [funcsOf]

/-- A player's functions are what the rows and slots of the table say of its pressed inputs. -/
theorem mem_funcsOf_pressedFuncs_iff {c : Config} {t : Table} {v : List Bool} {p : Nat} {f : Func}
    (hwf : c.wf = true) (ht : tableOk c t = true) :
    f ∈ funcsOf p (pressedFuncs c t v) ↔ ∃ e ∈ c.inputs.zip v, ∃ row : List Func,
      e.2 = true ∧ e.1.player = p ∧ t[p - 1]? = some row ∧ row[e.1.slot]? = some f := by
  rw [mem_funcsOf_iff, mem_pressedFuncs_iff]
  refine exists_congr fun e => and_congr_right fun he => ?_
  obtain ⟨row, hrow, hentry⟩ := tableEntry_of_input hwf ht (List.of_mem_zip he).1
  constructor
  · rintro ⟨hpressed, rfl, rfl⟩
    exact ⟨row, hpressed, rfl, hrow, hentry⟩
  · rintro ⟨row', hpressed, rfl, hrow', hentry'⟩
    obtain rfl : row = row' := Option.some.inj (hrow.symm.trans hrow')
    exact ⟨hpressed, rfl, Option.some.inj (hentry.symm.trans hentry')⟩

/-- The key codes come in input order, one for each pressed input that has one (41_map.md R141;
D14). -/
theorem mapActions_keyseq {c : Config} {t : Table} {v : List Bool} (hwf : c.wf = true)
    (ht : tableOk c t = true) :
    (mapActions c t v).keyseq = (c.inputs.zip v).filterMap (fun e =>
      if e.2 then
        match (t[e.1.player - 1]?).bind (fun row => row[e.1.slot]?) with
        | some (.keyCode k) => some k
        | _ => none
      else none) := by
  simp only [mapActions, pressedFuncs, List.filterMap_map, List.filterMap_filter]
  refine List.filterMap_congr fun e he => ?_
  obtain ⟨row, hrow, hentry⟩ := tableEntry_of_input hwf ht (List.of_mem_zip he).1
  rw [hrow, Option.bind_some, hentry]
  cases hf : tableEntry t e.1.player e.1.slot <;> simp [keyOf, hf]

/-! ## One player's action set from its functions -/

theorem getLsbD_ofNat_two_pow {w i b : Nat} (hi : i < w) :
    (BitVec.ofNat w (2 ^ b)).getLsbD i = decide (b = i) := by
  rw [BitVec.getLsbD_ofNat, Nat.testBit_two_pow, decide_eq_true hi, Bool.true_and]

theorem buttonBit_getLsbD_iff {f : Func} {b : Nat} (hb : b ≤ 29) :
    (buttonBit f).getLsbD b = true ↔ f = .button b := by
  cases f with
  | button b' =>
    rw [buttonBit, getLsbD_ofNat_two_pow (by omega), decide_eq_true_iff, Func.button.injEq]
  | _ => simp [buttonBit]

theorem keyBit_getLsbD_iff {f : Func} {k : Byte} :
    (keyBit f).getLsbD k.toNat = true ↔ f = .keyCode k := by
  cases f with
  | keyCode k' =>
    rw [keyBit, getLsbD_ofNat_two_pow k.isLt, decide_eq_true_iff, BitVec.toNat_inj,
      Func.keyCode.injEq]
  | _ => simp [keyBit]

/-- A bit of a set gathered from a list of functions is set by one of them. -/
theorem getLsbD_foldl_or_iff {w : Nat} (bit : Func → BitVec w) (fs : List Func) (acc : BitVec w)
    (i : Nat) :
    (fs.foldl (fun acc f => acc ||| bit f) acc).getLsbD i = true ↔
      acc.getLsbD i = true ∨ ∃ f ∈ fs, (bit f).getLsbD i = true := by
  induction fs generalizing acc with
  | nil => simp
  | cons f fs ih => simp [ih, or_assoc]

theorem playerActions_buttons_iff {fs : List Func} {b : Nat} (hb : b ≤ 29) :
    (playerActions fs).buttons.getLsbD b = true ↔ .button b ∈ fs := by
  simp [playerActions, getLsbD_foldl_or_iff, buttonBit_getLsbD_iff hb]

theorem playerActions_keys_iff {fs : List Func} {k : Byte} :
    (playerActions fs).keys.getLsbD k.toNat = true ↔ .keyCode k ∈ fs := by
  simp [playerActions, getLsbD_foldl_or_iff, keyBit_getLsbD_iff]

theorem resolve_eq_min_iff {neg pos : Bool} :
    resolve neg pos = .min ↔ neg = true ∧ ¬ pos = true := by
  cases neg <;> cases pos <;> decide

theorem resolve_eq_max_iff {neg pos : Bool} :
    resolve neg pos = .max ↔ pos = true ∧ ¬ neg = true := by
  cases neg <;> cases pos <;> decide

/-! ## The operation -/

theorem execMap_of_length {v : List Bool} {s : State} (h : v.length = s.cfg.inputs.length) :
    execMap v s = .next (s.withRet (.actions (mapActions s.cfg s.map v))) :=
  if_pos h

@[simp] theorem mapActions_players_length (c : Config) (t : Table) (v : List Bool) :
    (mapActions c t v).players.length = c.nPlayers := by
  simp [mapActions]

theorem eq_playerActions_of_getElem? {c : Config} {t : Table} {v : List Bool} {p : Nat}
    {a : PlayerActions} (hpos : 1 ≤ p) (ha : (mapActions c t v).players[p - 1]? = some a) :
    a = playerActions (funcsOf p (pressedFuncs c t v)) := by
  obtain ⟨hp, rfl⟩ := List.getElem?_eq_some_iff.mp ha
  simp [mapActions, Nat.sub_add_cancel hpos]

/-- Settles O23: a player's functions are the ones the table names for its pressed inputs
(`mem_funcsOf_pressedFuncs_iff`), and each part of the action set is membership in them. -/
theorem mapResolvesThePressedInputs : Obligations.MapResolvesThePressedInputs := by
  intro v s hwf ⟨htable, _⟩ hlen
  refine ⟨_, execMap_of_length hlen, mapActions_players_length _ _ _,
    mapActions_keyseq hwf htable, fun p a maps hpos ha hmaps => ?_⟩
  obtain rfl := eq_playerActions_of_getElem? hpos ha
  have hmem (f : Func) : f ∈ funcsOf p (pressedFuncs s.cfg s.map v) ↔ maps f :=
    (mem_funcsOf_pressedFuncs_iff hwf htable).trans (hmaps f).symm
  simp only [← hmem]
  refine ⟨decide_eq_true_iff, decide_eq_true_iff, decide_eq_true_iff, decide_eq_true_iff,
    fun _ => playerActions_buttons_iff, fun _ => playerActions_keys_iff, ?_, ?_, ?_, ?_⟩
  all_goals simp [playerActions, resolve_eq_min_iff, resolve_eq_max_iff]

end Sys2Proof.Proofs.Map
end

section
/-! The statement of 42_joystick.md. -/

namespace Sys2Proof.Proofs.Joystick

open Sys2Proof Sys2Proof.Machine

/-! ## The `buttons` field and its two bytes -/

/-- The mask keeps the pressed buttons below `JOY_BUTTON_COUNT` (42_joystick.md R156, R157). -/
theorem buttonField_getLsbD (c : Config) (buttons : BitVec 30) {i : Nat} (hi : i < 16) :
    (buttonField c buttons).getLsbD i
      = (buttons.getLsbD i && decide (i < c.joyButtonCount)) := by
  have hmask : (BitVec.ofNat 16 (2 ^ (min c.joyButtonCount 16) - 1)).getLsbD i
      = decide (i < c.joyButtonCount) := by
    rw [BitVec.getLsbD_ofNat, Nat.testBit_two_pow_sub_one]
    simp [hi]
  rw [buttonField, BitVec.getLsbD_and, hmask, BitVec.getLsbD_setWidth, decide_eq_true hi,
    Bool.true_and]

/-- Bit `b` of the byte that starts at bit `start` of the field is button `start + b`. -/
theorem buttonField_byte_getLsbD (c : Config) (buttons : BitVec 30) {start b : Nat} (hb : b < 8)
    (hstart : start ≤ 8) :
    ((buttonField c buttons).extractLsb' start 8).getLsbD b
      = (buttons.getLsbD (start + b) && decide (start + b < c.joyButtonCount)) := by
  rw [BitVec.getLsbD_extractLsb', decide_eq_true hb, Bool.true_and,
    buttonField_getLsbD c buttons (by omega)]

/-! ## The operation -/

/-- The report is the optional report id, the two axis bytes and the two button bytes
(42_joystick.md R156). -/
theorem joyReport_eq_append (c : Config) (a : PlayerActions) (p : Nat) :
    joyReport c a p = (if c.joyHasReportId then [joyReportId c p] else [])
      ++ [axisByte c a.x, axisByte c a.y, (buttonField c a.buttons).extractLsb' 0 8,
        (buttonField c a.buttons).extractLsb' 8 8] := by
  unfold joyReport
  split <;> rfl

theorem execEncJoy_of_player {act : ActionSet} {p : Nat} {a : PlayerActions} {s : State}
    (hmode : s.cfg.mode = .joystick) (hpos : 1 ≤ p) (hle : p ≤ s.cfg.nPlayers)
    (ha : act.players[p - 1]? = some a) :
    execEncJoy act p s = .next (s.withRet (.report (joyReport s.cfg a p))) := by
  rw [execEncJoy, if_pos ⟨hpos, hle⟩, ha]
  exact onlyIn_of_mode hmode

/-- Settles O24: the operation returns `joyReport` and nothing else (`execEncJoy_of_player`), whose
bytes are those of `joyReport_eq_append`; the button bits are those of
`buttonField_byte_getLsbD` at bits 0 and 8 of the field. -/
theorem joystickReportLayout : Obligations.JoystickReportLayout := by
  intro act p a s hmode hpos hle ha
  refine ⟨joyReportId s.cfg p, axisByte s.cfg a.x, axisByte s.cfg a.y, _, _, _,
    execEncJoy_of_player hmode hpos hle ha, joyReport_eq_append s.cfg a p, rfl, rfl, rfl,
    fun b hb => ⟨?low, ?high⟩⟩
  case low => simpa only [Nat.zero_add] using
    buttonField_byte_getLsbD s.cfg a.buttons hb (Nat.zero_le 8)
  case high => simpa only [Nat.add_comm 8 b] using
    buttonField_byte_getLsbD s.cfg a.buttons hb (Nat.le_refl 8)

end Sys2Proof.Proofs.Joystick
end

section
/-! The statements of 43_keyboard.md. -/

namespace Sys2Proof.Proofs.Keyboard

open Sys2Proof Sys2Proof.Machine

/-! ## The bits of the pressed key codes -/

/-- A bit of a word built up over a list was set at the start or is set by one of the elements. -/
theorem getLsbD_foldl_iff {α : Type} {w i : Nat} {f : BitVec w → α → BitVec w} {P : α → Prop}
    (hf : ∀ acc a, (f acc a).getLsbD i = true ↔ acc.getLsbD i = true ∨ P a) (l : List α)
    (acc : BitVec w) :
    (l.foldl f acc).getLsbD i = true ↔ acc.getLsbD i = true ∨ ∃ a ∈ l, P a := by
  induction l generalizing acc with
  | nil => simp
  | cons a l ih => simp [ih, hf, or_assoc]

theorem allKeys_getLsbD_iff (act : ActionSet) (k : Nat) :
    (allKeys act).getLsbD k = true ↔ ∃ a ∈ act.players, a.keys.getLsbD k = true := by
  rw [allKeys, getLsbD_foldl_iff (P := fun a => a.keys.getLsbD k = true) (by simp)]
  simp

theorem modifierByte_getLsbD_iff (c : Config) (act : ActionSet) {j : Nat} (hj : j < 8) :
    (modifierByte c act).getLsbD j = true ↔
      c.kbdModifierKeys = true ∧ ∃ a ∈ act.players, a.keys.getLsbD (0xE0 + j) = true := by
  unfold modifierByte
  split_ifs with hkeys <;> simp [hkeys, hj, allKeys_getLsbD_iff]

/-! ## The operation -/

theorem execEncKbd_of_mode {act : ActionSet} {s : State} (hmode : s.cfg.mode = .keyboard) :
    execEncKbd act s = .next (s.withRet (.report (kbdReport s.cfg act))) :=
  onlyIn_of_mode hmode

/-- The report is the optional report id, the modifiers, the reserved byte and the keys
(43_keyboard.md R170). -/
theorem kbdReport_eq_append (c : Config) (act : ActionSet) :
    kbdReport c act = (if c.kbdHasReportId then [c.kbdReportId] else [])
      ++ [modifierByte c act, 0x00] ++ keyArray c act := by
  unfold kbdReport
  split <;> rfl

theorem keyArray_of_slot {c : Config} {n : Nat} (act : ActionSet) (h : c.kbdPolicy = .slot n) :
    keyArray c act = slotKeys c n act := by
  rw [keyArray, h]

theorem keyArray_of_bitmap {c : Config} {bits : Nat} (act : ActionSet)
    (h : c.kbdPolicy = .bitmap bits) : keyArray c act = bitmapKeys c bits act := by
  rw [keyArray, h]

/-! ## The slot policy -/

theorem eraseDups_concat_of_mem {l : List Byte} {k : Byte} (h : k ∈ l) :
    (l ++ [k]).eraseDups = l.eraseDups := by
  simp [List.eraseDups_append, List.removeAll, h]

theorem eraseDups_concat_of_not_mem {l : List Byte} {k : Byte} (h : k ∉ l) :
    (l ++ [k]).eraseDups = l.eraseDups ++ [k] := by
  simp [List.eraseDups_append, List.removeAll, h, List.eraseDups_cons]

theorem nodup_eraseDups (l : List Byte) : l.eraseDups.Nodup := by
  induction l using List.reverseRecOn with
  | nil => simp
  | append_singleton l k ih =>
    by_cases hmem : k ∈ l
    · rwa [eraseDups_concat_of_mem hmem]
    · rw [eraseDups_concat_of_not_mem hmem, ← List.concat_eq_append]
      exact ih.concat (by rwa [List.mem_eraseDups])

/-- A key code that may take a slot: neither zero nor a modifier (43_keyboard.md R171, R177). -/
def takesSlot (c : Config) (k : Byte) : Bool := !(k == 0x00) && !isModifier c k

theorem takesSlot_iff {c : Config} {k : Byte} :
    takesSlot c k = true ↔ k ≠ 0x00 ∧ isModifier c k = false := by
  simp [takesSlot]

/-- The distinct key codes of a sequence that may take a slot, in order of first occurrence
(43_keyboard.md R172, R174). -/
def slotCandidates (c : Config) (keyseq : List Byte) : List Byte :=
  (keyseq.filter (takesSlot c)).eraseDups

theorem mem_slotCandidates_iff {c : Config} {keyseq : List Byte} {k : Byte} :
    k ∈ slotCandidates c keyseq ↔ k ∈ keyseq ∧ k ≠ 0x00 ∧ isModifier c k = false := by
  rw [slotCandidates, List.mem_eraseDups, List.mem_filter, takesSlot_iff]

theorem slotCandidates_concat_of_ignored {c : Config} {keyseq : List Byte} {k : Byte}
    (h : ¬ (k ≠ 0x00 ∧ isModifier c k = false) ∨ k ∈ slotCandidates c keyseq) :
    slotCandidates c (keyseq ++ [k]) = slotCandidates c keyseq := by
  rw [slotCandidates, List.filter_append]
  by_cases hk : takesSlot c k = true
  · have hmem := List.mem_eraseDups.mp (h.resolve_left (not_not_intro (takesSlot_iff.mp hk)))
    rw [List.filter_singleton, hk]
    exact eraseDups_concat_of_mem hmem
  · simp [hk, slotCandidates]

theorem slotCandidates_concat_of_new {c : Config} {keyseq : List Byte} {k : Byte}
    (hzero : k ≠ 0x00) (hmod : isModifier c k = false) (hnew : k ∉ slotCandidates c keyseq) :
    slotCandidates c (keyseq ++ [k]) = slotCandidates c keyseq ++ [k] := by
  rw [slotCandidates, List.filter_append, List.filter_singleton, takesSlot_iff.mpr ⟨hzero, hmod⟩]
  exact eraseDups_concat_of_not_mem (mt List.mem_eraseDups.mpr hnew)

/-- The slots filled after a key sequence are its first `n` candidates (43_keyboard.md R172 to
R174): a key passed over is no new candidate, or comes after the first `n`. -/
theorem foldl_takeSlot (c : Config) (n : Nat) (keyseq : List Byte) :
    keyseq.foldl (takeSlot c n) [] = (slotCandidates c keyseq).take n := by
  induction keyseq using List.reverseRecOn with
  | nil => simp [slotCandidates]
  | append_singleton l k ih =>
    rw [List.foldl_concat, ih, takeSlot]
    split_ifs with hzero hmod hheld hroom
    · rw [slotCandidates_concat_of_ignored (.inl fun h => h.1 hzero)]
    · rw [slotCandidates_concat_of_ignored (.inl fun h => by simp [hmod] at h)]
    · rw [slotCandidates_concat_of_ignored (.inr (List.mem_of_mem_take hheld))]
    · have hlt : (slotCandidates c l).length < n := by simpa using hroom
      rw [List.take_of_length_le hlt.le] at hheld ⊢
      rw [slotCandidates_concat_of_new hzero (Bool.eq_false_of_not_eq_true hmod) hheld,
        List.take_of_length_le (by simpa using hlt)]
    · have hfull : n ≤ (slotCandidates c l).length := by simpa using hroom
      by_cases hmem : k ∈ slotCandidates c l
      · rw [slotCandidates_concat_of_ignored (.inr hmem)]
      · rw [slotCandidates_concat_of_new hzero (Bool.eq_false_of_not_eq_true hmod) hmem,
          List.take_append_of_le_length hfull]

/-- The slot array is the first `n` candidates, then empty slots (43_keyboard.md R172). -/
theorem slotKeys_eq (c : Config) (n : Nat) (act : ActionSet) :
    slotKeys c n act = (slotCandidates c act.keyseq).take n
      ++ List.replicate (n - (slotCandidates c act.keyseq).length) 0x00 := by
  rw [slotKeys, foldl_takeSlot, List.length_take, tsub_min]

/-- Settles O25: the keys are the slots of `slotKeys_eq`, whose candidates `slotCandidates` are the
statement's distinct key codes. -/
theorem slotPolicyReport : Obligations.SlotPolicyReport := by
  intro act n s hmode hpolicy
  refine ⟨modifierByte s.cfg act, slotCandidates s.cfg act.keyseq, slotKeys s.cfg n act, _,
    execEncKbd_of_mode hmode, ?report, fun j hj => modifierByte_getLsbD_iff s.cfg act hj, rfl,
    slotKeys_eq s.cfg n act⟩
  case report => rw [kbdReport_eq_append, keyArray_of_slot act hpolicy]

/-! ### What a slot array can hold -/

theorem ne_zero_of_mem_slotCandidates {c : Config} {keyseq : List Byte} {k : Byte}
    (h : k ∈ slotCandidates c keyseq) : k ≠ 0x00 :=
  (mem_slotCandidates_iff.mp h).2.1

/-- Without its empty slots the array is the first `n` candidates. -/
theorem slotKeys_filter_ne_zero (c : Config) (n : Nat) (act : ActionSet) :
    (slotKeys c n act).filter (fun k => k != 0x00) = (slotCandidates c act.keyseq).take n := by
  have hkeep : ((slotCandidates c act.keyseq).take n).filter (fun k => k != 0x00)
      = (slotCandidates c act.keyseq).take n :=
    List.filter_eq_self.mpr fun k hk =>
      bne_iff_ne.mpr (ne_zero_of_mem_slotCandidates (List.mem_of_mem_take hk))
  rw [slotKeys_eq, List.filter_append, hkeep]
  simp

theorem mem_slotKeys_iff {c : Config} {n : Nat} {act : ActionSet} {k : Byte} (hk : k ≠ 0x00) :
    k ∈ slotKeys c n act ↔ k ∈ (slotCandidates c act.keyseq).take n := by
  rw [← slotKeys_filter_ne_zero, List.mem_filter, and_iff_left (bne_iff_ne.mpr hk)]

/-- As many candidates as slots leave no slot empty (43_keyboard.md R173). -/
theorem ne_zero_of_mem_slotKeys {c : Config} {n : Nat} {act : ActionSet} {j : Byte}
    (hfull : n ≤ (slotCandidates c act.keyseq).length) (hj : j ∈ slotKeys c n act) : j ≠ 0x00 := by
  rw [slotKeys_eq, Nat.sub_eq_zero_of_le hfull, List.replicate_zero, List.append_nil] at hj
  exact ne_zero_of_mem_slotCandidates (List.mem_of_mem_take hj)

/-- Settles O26: the nonzero slots are the first `n` of the candidates, which are distinct; a
candidate outside them shows that there are more candidates than slots. -/
theorem slotsHoldNoDuplicates : Obligations.SlotsHoldNoDuplicates := by
  intro c n act
  refine ⟨Invariant.slotKeys_length c n act, ?nodup, fun k hk hzero => ?pressed,
    fun k hk hzero hmod hdropped j hj => ne_zero_of_mem_slotKeys ?full hj⟩
  case nodup =>
    rw [slotKeys_filter_ne_zero]
    exact (nodup_eraseDups _).take
  case pressed =>
    have hcand := List.mem_of_mem_take ((mem_slotKeys_iff hzero).mp hk)
    exact (mem_slotCandidates_iff.mp hcand).1
  case full =>
    by_contra hroom
    have hcand := mem_slotCandidates_iff.mpr ⟨hk, hzero, hmod⟩
    rw [mem_slotKeys_iff hzero, List.take_of_length_le (by omega)] at hdropped
    exact hdropped hcand

/-! ## The bitmap policy -/

theorem isModifier_ofNat_iff (c : Config) {k : Nat} (hk : k < 256) :
    isModifier c (BitVec.ofNat 8 k) = true ↔
      c.kbdModifierKeys = true ∧ 0xE0 ≤ k ∧ k ≤ 0xE7 := by
  rw [isModifier, BitVec.toNat_ofNat, Nat.mod_eq_of_lt hk, Bool.and_eq_true, decide_eq_true_iff]

theorem inBitmap_iff (c : Config) (act : ActionSet) {k : Nat} (hk : k < 256) :
    inBitmap c (allKeys act) k = true ↔
      (∃ a ∈ act.players, a.keys.getLsbD k = true) ∧ k ≠ 0
        ∧ ¬ (c.kbdModifierKeys = true ∧ 0xE0 ≤ k ∧ k ≤ 0xE7) := by
  rw [inBitmap, Bool.and_eq_true, Bool.and_eq_true, allKeys_getLsbD_iff, bne_iff_ne,
    Bool.not_eq_true', ← Bool.not_eq_true, isModifier_ofNat_iff c hk, and_assoc]

/-- Bit `b` of byte `j` is that of key code `8 * j + b` (20_memory.md R65). -/
theorem bitmapByte_getLsbD_iff (c : Config) (keys : BitVec 256) (j : Nat) {b : Nat} (hb : b < 8) :
    (bitmapByte c keys j).getLsbD b = true ↔ inBitmap c keys (8 * j + b) = true := by
  have hstep (acc : Byte) (i : Nat) :
      (if inBitmap c keys (8 * j + i) then acc ||| BitVec.ofNat 8 (2 ^ i) else acc).getLsbD b = true
        ↔ acc.getLsbD b = true ∨ inBitmap c keys (8 * j + i) = true ∧ i = b := by
    split_ifs with hin
    · rw [BitVec.getLsbD_or, Map.getLsbD_ofNat_two_pow hb]
      simp [hin]
    · simp [hin]
  rw [bitmapByte, getLsbD_foldl_iff hstep]
  simp [hb]

theorem bitmapKeys_getElem? {c : Config} {bits j : Nat} (act : ActionSet) (hj : j < bits / 8) :
    (bitmapKeys c bits act)[j]? = some (bitmapByte c (allKeys act) j) := by
  simp [bitmapKeys, hj]

/-- `KBD_BITMAP_BITS` of a configuration (00_scope.md R6). -/
theorem bitmap_bits_of_wf {c : Config} {bits : Nat} (hwf : c.wf = true)
    (hpolicy : c.kbdPolicy = .bitmap bits) : bits = 96 ∨ bits = 104 := by
  simp only [Config.wf, hpolicy, KbdPolicy.ok, Bool.and_eq_true, Bool.or_eq_true, beq_iff_eq] at hwf
  tauto

/-- Settles O27: byte `k / 8` is `bitmapByte`, whose bit `k % 8` is that of key code `k`
(`bitmapByte_getLsbD_iff`, `inBitmap_iff`); a configuration's bitmap is a whole number of bytes and
ends below key code 256. -/
theorem bitmapPolicyReport : Obligations.BitmapPolicyReport := by
  intro act bits s hwf hmode hpolicy
  refine ⟨modifierByte s.cfg act, bitmapKeys s.cfg bits act, _, execEncKbd_of_mode hmode, ?report,
    Invariant.bitmapKeys_length s.cfg bits act,
    fun j hj => modifierByte_getLsbD_iff s.cfg act hj, fun k hk => ?bit⟩
  case report => rw [kbdReport_eq_append, keyArray_of_bitmap act hpolicy]
  case bit =>
    have hbits := bitmap_bits_of_wf hwf hpolicy
    refine ⟨_, bitmapKeys_getElem? act (by omega), ?_⟩
    rw [bitmapByte_getLsbD_iff _ _ _ (by omega), Nat.div_add_mod, inBitmap_iff _ _ (by omega)]

end Sys2Proof.Proofs.Keyboard
end

section
/-! The statements of 44_jvs_framing.md. -/

namespace Sys2Proof.Proofs.Framing

open Sys2Proof Sys2Proof.Machine

/-! ## One wire byte on the state -/

/-- The state after reception has found `p` in a byte: the receive registers, the returned value,
and the record of a `ChecksumError` (44_jvs_framing.md R190, R198). -/
def afterReceive (p : Rx × RxResult) (s : State) : State :=
  { s with
    rx := p.1
    ret := .rx (decide (p.2 = .complete))
    trace := s.trace ++ if p.2 = .checksumError then [.condition .checksumError] else [] }

theorem receiveByte_eq_afterReceive (w : Byte) (s : State) :
    receiveByte w s = afterReceive (rxByte s.cfg w s.rx) s := by
  have hrx := Invariant.receiveByte_rx w s
  rw [receiveByte_eq] at hrx ⊢
  exact congrArg (fun r => { afterReceive (rxByte s.cfg w s.rx) s with rx := r }) hrx

/-- A byte that leads to nothing changes the receive registers alone. -/
theorem afterReceive_none (r : Rx) (s : State) :
    afterReceive (r, .none) s = { s with rx := r, ret := .rx false } := by
  simp [afterReceive]

theorem receiveByte_of_none {w : Byte} {s : State} {r : Rx} (h : rxByte s.cfg w s.rx = (r, .none)) :
    receiveByte w s = { s with rx := r, ret := .rx false } := by
  rw [receiveByte_eq_afterReceive, h, afterReceive_none]

theorem exec_jvsRxByte {w : Byte} {s : State} (hmode : s.cfg.mode = .jvs) :
    exec (.jvsRxByte w) s = .next (receiveByte w s) :=
  onlyIn_of_mode hmode

/-! ## The fields of a frame -/

/-- The declared lengths that discard a frame, in a configuration (44_jvs_framing.md R196). -/
theorem badLength_iff {c : Config} {b : Byte} (h : c.wf = true) :
    badLength c b = true ↔ b = 0 ∨ 253 < b.toNat := by
  obtain ⟨_, _, _, _, hmax, _⟩ := wf_fixed h
  simp only [badLength, hmax, Bool.or_eq_true, beq_iff_eq, decide_eq_true_eq]
  bv_omega

theorem rxLength_of_bad {c : Config} {b : Byte} {r : Rx} (h : badLength c b = true) :
    rxLength c b r = { r with len := b, sum := r.sum + b, state := .waitSync } := by
  simp [rxLength, h]

theorem rxLength_of_ok {c : Config} {b : Byte} {r : Rx} (h : ¬ badLength c b = true) :
    rxLength c b r = { r with
      len := b, sum := r.sum + b, need := b.toNat - 1, count := 0
      state := if b.toNat - 1 = 0 then .getChecksum else .getData } := by
  simp [rxLength, h]

theorem rxOrdinary_of_getDestination {c : Config} {b : Byte} {r : Rx}
    (h : r.state = .getDestination) :
    rxOrdinary c b r = ({ r with dest := b, sum := b, state := .getLength }, .none) := by
  simp [rxOrdinary, h]

theorem rxOrdinary_of_getLength {c : Config} {b : Byte} {r : Rx} (h : r.state = .getLength) :
    rxOrdinary c b r = (rxLength c b r, .none) := by
  simp [rxOrdinary, h]

theorem rxOrdinary_of_getData {c : Config} {b : Byte} {r : Rx} (h : r.state = .getData) :
    rxOrdinary c b r = (rxData b r, .none) := by
  simp [rxOrdinary, h]

theorem rxOrdinary_of_getChecksum {c : Config} {b : Byte} {r : Rx} (h : r.state = .getChecksum) :
    rxOrdinary c b r
      = ({ r with state := .waitSync }, if b = r.sum then .complete else .checksumError) := by
  simp [rxOrdinary, h]

/-- The rows "other" of the transition table are the state's own action on the transformed byte, `r`
being the receive registers with the transform disarmed. -/
theorem receivedAs_rxOrdinary {b : Byte} {s : State} {r : Rx} (hwf : s.cfg.wf = true)
    (hr : r = { s.rx with escape := false }) :
    ReceivedAs b s (afterReceive (rxOrdinary s.cfg b r) s) := by
  have hstate : r.state = s.rx.state := by rw [hr]
  have hsum : r.sum = s.rx.sum := by rw [hr]
  refine ⟨fun h => ?dest, fun h hb => ?bad, fun h hb => ?one, fun h hlo hhi => ?len,
    fun h => ?data, fun h hb => ?complete, fun h hb => ?error⟩
  case dest => rw [rxOrdinary_of_getDestination (hstate.trans h), afterReceive_none, hr]
  case bad =>
    rw [rxOrdinary_of_getLength (hstate.trans h), rxLength_of_bad ((badLength_iff hwf).mpr hb),
      afterReceive_none, hr]
  case one =>
    have hok : ¬ badLength s.cfg b = true := by
      rw [badLength_iff hwf, hb]
      decide
    rw [rxOrdinary_of_getLength (hstate.trans h), rxLength_of_ok hok, afterReceive_none, hr, hb]
    rfl
  case len =>
    have hok : ¬ badLength s.cfg b = true := by
      rw [badLength_iff hwf]
      bv_omega
    rw [rxOrdinary_of_getLength (hstate.trans h), rxLength_of_ok hok, if_neg (by omega),
      afterReceive_none, hr]
  case data =>
    rw [rxOrdinary_of_getData (hstate.trans h), afterReceive_none, hr]
    rfl
  case complete =>
    rw [rxOrdinary_of_getChecksum (hstate.trans h), if_pos (hb.trans hsum.symm), hr]
    simp [afterReceive]
  case error =>
    rw [rxOrdinary_of_getChecksum (hstate.trans h), if_neg (hsum ▸ hb), hr]
    simp [afterReceive]

/-- Settles O33: the four tests of `rxByte` in their order, and `receivedAs_rxOrdinary` for the byte
that passes them. -/
theorem receiveByteTransitions : Obligations.ReceiveByteTransitions := by
  intro w s hwf hmode
  obtain ⟨_, _, hsync, hescape, _⟩ := wf_fixed hwf
  refine ⟨_, exec_jvsRxByte hmode, fun hw => ?sync, fun hw hstate => ?waiting,
    fun hw hstate he => ?arming, fun hw hstate he => ?armed, fun hw hw' hstate he => ?plain⟩
  case sync => rw [receiveByte_of_none (by rw [hw, ← hsync, rxByte_sync])]; rfl
  case waiting => rw [receiveByte_of_none (rxByte_waitSync (hsync ▸ hw) hstate)]
  case arming =>
    rw [hw, ← hescape,
      receiveByte_of_none (rxByte_escape (Encoding.jvsEscape_ne_jvsSync hwf) hstate he)]
  case armed =>
    rw [receiveByte_eq_afterReceive, rxByte_armed (hsync ▸ hw) hstate he]
    exact receivedAs_rxOrdinary hwf rfl
  case plain =>
    rw [receiveByte_eq_afterReceive, rxByte_plain (hsync ▸ hw) (hescape ▸ hw') hstate he]
    exact receivedAs_rxOrdinary hwf (by rw [← he])

/-- Settles O34: `SYNC` is the first test of `rxByte` (`rxByte_sync`), before the
decoder's state. -/
theorem syncRestartsReception : Obligations.SyncRestartsReception := by
  rintro s t hmode rfl
  have hreceive : receiveByte s.cfg.jvsSync s = { s with rx := rxSync s.rx, ret := .rx false } :=
    receiveByte_of_none (rxByte_sync s.cfg s.rx)
  exact ⟨(onlyIn_of_mode hmode).trans (congrArg _ hreceive),
    (exec_jvsRxByte hmode).trans (congrArg _ hreceive)⟩

/-! ## An `ESCAPE` and the byte after it -/

/-- The state an unescaped `ESCAPE` inside a frame leaves. -/
def armed (s : State) : State := { s with rx := { s.rx with escape := true }, ret := .rx false }

theorem exec_escape_of_waitSync {w : Byte} {s : State} (hwf : s.cfg.wf = true)
    (hmode : s.cfg.mode = .jvs) (hw : w ≠ s.cfg.jvsSync) (hstate : s.rx.state = .waitSync) :
    exec (.escape w) s = .next { s with ret := .rx false } := by
  have hfirst : receiveByte s.cfg.jvsEscape s = { s with ret := .rx false } :=
    receiveByte_of_none (rxByte_waitSync (Encoding.jvsEscape_ne_jvsSync hwf) hstate)
  have hsecond : receiveByte w { s with ret := .rx false } = { s with ret := .rx false } :=
    receiveByte_of_none (rxByte_waitSync hw hstate)
  refine (onlyIn_of_mode hmode).trans ?_
  rw [hfirst, hsecond]
  rfl

theorem exec_escape_of_frame {w : Byte} {s : State} (hwf : s.cfg.wf = true)
    (hmode : s.cfg.mode = .jvs) (hw : w ≠ s.cfg.jvsSync) (hstate : s.rx.state ≠ .waitSync)
    (he : s.rx.escape = false) :
    exec (.escape w) s
      = .next (afterReceive (rxOrdinary s.cfg (w + 1) { s.rx with escape := false }) s) := by
  have hfirst : receiveByte s.cfg.jvsEscape s = armed s :=
    receiveByte_of_none (rxByte_escape (Encoding.jvsEscape_ne_jvsSync hwf) hstate he)
  have hsecond : receiveByte w (armed s)
      = afterReceive (rxOrdinary s.cfg (w + 1) { s.rx with escape := false }) (armed s) := by
    rw [receiveByte_eq_afterReceive]
    exact congrArg (afterReceive · (armed s)) (rxByte_armed hw hstate rfl)
  refine (onlyIn_of_mode hmode).trans ?_
  rw [hfirst, hsecond]
  generalize rxOrdinary s.cfg (w + 1) { s.rx with escape := false } = p
  obtain ⟨r, res⟩ := p
  cases res <;> rfl

/-- Settles O35: the first byte arms the transform and the second is received as `w + 1`
(`exec_escape_of_frame`); in `WaitSync` neither does anything. -/
theorem escapePairIsOneByte : Obligations.EscapePairIsOneByte := by
  intro w s hwf hmode hw he
  obtain ⟨_, _, hsync, _⟩ := wf_fixed hwf
  rw [← hsync] at hw
  by_cases hstate : s.rx.state = .waitSync
  · exact ⟨_, exec_escape_of_waitSync hwf hmode hw hstate, fun _ => rfl, absurd hstate⟩
  · exact ⟨_, exec_escape_of_frame hwf hmode hw hstate he, (absurd · hstate),
      fun _ => receivedAs_rxOrdinary hwf rfl⟩

/-! ## A time-out -/

/-- Settles O13: the receive loop answers a time-out with the end of the iteration, which touches
neither the receive registers nor any other. -/
theorem timeoutEndsTheIterationOnly : Obligations.TimeoutEndsTheIterationOnly := by
  intro s rest hwf hphase hserial
  have hstep : step s = .next (endIteration (s.withSerial rest)) := by
    simp [step, receiveStep, hwf, hphase, hserial]
  exact hstep

/-! ## The sum and the wire form of a frame -/

theorem byteSum_eq_sum (l : List Byte) : byteSum l = l.sum :=
  List.sum_eq_foldl.symm

theorem byteSum_concat (l : List Byte) (b : Byte) : byteSum (l ++ [b]) = byteSum l + b := by
  simp [byteSum_eq_sum]

theorem byteSum_toNat (l : List Byte) : (byteSum l).toNat = (l.map BitVec.toNat).sum % 256 := by
  induction l with
  | nil => rfl
  | cons b l ih =>
    rw [byteSum_eq_sum] at ih ⊢
    rw [List.sum_cons, BitVec.toNat_add, ih, List.map_cons, List.sum_cons]
    omega

/-- The sum detects one changed byte (30_encoding.md R82). -/
theorem byteSum_set_ne {l : List Byte} {k : Nat} {old new : Byte} (hold : l[k]? = some old)
    (hne : new ≠ old) : byteSum (l.set k new) ≠ byteSum l := by
  obtain ⟨hk, rfl⟩ := List.getElem?_eq_some_iff.mp hold
  intro h
  rw [byteSum_eq_sum, byteSum_eq_sum, List.set_eq_take_append_cons_drop, if_pos hk] at h
  nth_rw 3 [← List.take_append_drop k l] at h
  rw [List.drop_eq_getElem_cons hk, List.sum_append, List.sum_append, List.sum_cons, List.sum_cons,
    add_right_inj, add_left_inj] at h
  exact hne h

theorem wireFrame_eq {c : Config} (h : c.wf = true) (dest : Byte) (data : List Byte) :
    wireFrame c dest data = 0xE0 :: (frameBody dest data).flatMap
      (fun b => if b = 0xE0 ∨ b = 0xD0 then [0xD0, b - 1] else [b]) := by
  obtain ⟨_, _, hsync, hescape, _⟩ := wf_fixed h
  simp only [wireFrame, hsync]
  congr 2
  funext b
  rw [stuff, hsync, hescape]

/-- The length byte of a frame that fits does not wrap (30_encoding.md R81). -/
theorem toNat_lengthByte {n : Nat} (h : n ≤ 252) :
    (BitVec.ofNat 8 (n + 1) : Byte).toNat = n + 1 := by
  rw [BitVec.toNat_ofNat]
  omega

/-- Settles O37: `wireFrame` is the stuffed frame with the length and the sum of R81 and R82, and
the bound of `execJvsTxFrame` is the configuration's 252. -/
theorem transmitFrameBytes : Obligations.TransmitFrameBytes := by
  intro dest data s hwf
  obtain ⟨_, _, _, _, hmax, _⟩ := wf_fixed hwf
  refine ⟨fun hlen hmode => ?sent, fun hlen => ?refused⟩
  case sent =>
    refine ⟨_, _, wireFrame s.cfg dest data, toNat_lengthByte hlen, ?sum,
      wireFrame_eq hwf dest data, ?exec⟩
    case sum =>
      rw [byteSum_toNat]
      simp [Nat.add_assoc]
    case exec =>
      have hexec : exec (.jvsTxFrame dest data) s = execJvsTxFrame dest data s := rfl
      rw [hexec, execJvsTxFrame, if_pos (hmax ▸ hlen)]
      exact onlyIn_of_mode hmode
  case refused =>
    have hlong : ¬ data.length ≤ s.cfg.jvsMaxPayload := by omega
    exact if_neg hlong

/-! ## Receiving byte sequences -/

theorem receiveAll_append (c : Config) (xs ys : List Byte) (r : Rx) :
    receiveAll c (xs ++ ys) r = receiveAll c ys (receiveAll c xs r) :=
  List.foldl_append

theorem receiveResults_append (c : Config) (xs ys : List Byte) (r : Rx) :
    receiveResults c (xs ++ ys) r
      = receiveResults c xs r ++ receiveResults c ys (receiveAll c xs r) := by
  induction xs generalizing r with
  | nil => rfl
  | cons w xs ih => exact congrArg _ (ih _)

/-- The bytes `wire` lead from `r` to `r'` and return nothing. -/
def ReadsSilently (c : Config) (wire : List Byte) (r r' : Rx) : Prop :=
  receiveResults c wire r = List.replicate wire.length .none ∧ receiveAll c wire r = r'

/-- The bytes `wire` lead from `r` to the registers `p.1`, and return nothing but for the last,
which returns `p.2`. -/
def Reads (c : Config) (wire : List Byte) (r : Rx) (p : Rx × RxResult) : Prop :=
  receiveResults c wire r = List.replicate (wire.length - 1) .none ++ [p.2]
    ∧ receiveAll c wire r = p.1

theorem readsSilently_nil (c : Config) (r : Rx) : ReadsSilently c [] r r := ⟨rfl, rfl⟩

theorem reads_singleton (c : Config) (w : Byte) (r : Rx) : Reads c [w] r (rxByte c w r) :=
  ⟨rfl, rfl⟩

theorem Reads.ne_nil {c : Config} {wire : List Byte} {r : Rx} {p : Rx × RxResult}
    (h : Reads c wire r p) : wire ≠ [] := by
  rintro rfl
  obtain ⟨hresults, _⟩ := h
  cases hresults

theorem Reads.silently {c : Config} {wire : List Byte} {r r' : Rx}
    (h : Reads c wire r (r', .none)) : ReadsSilently c wire r r' := by
  have hpos := List.length_pos_iff.mpr h.ne_nil
  obtain ⟨hresults, hall⟩ := h
  refine ⟨hresults.trans ?_, hall⟩
  rw [← List.replicate_succ', Nat.sub_add_cancel hpos]

theorem ReadsSilently.append {c : Config} {xs ys : List Byte} {r r' r'' : Rx}
    (hx : ReadsSilently c xs r r') (hy : ReadsSilently c ys r' r'') :
    ReadsSilently c (xs ++ ys) r r'' := by
  obtain ⟨hxs, rfl⟩ := hx
  obtain ⟨hys, rfl⟩ := hy
  refine ⟨?_, receiveAll_append c xs ys r⟩
  rw [receiveResults_append, hxs, hys, List.length_append, List.replicate_append_replicate]

theorem ReadsSilently.reads_append {c : Config} {xs ys : List Byte} {r r' : Rx} {p : Rx × RxResult}
    (hx : ReadsSilently c xs r r') (hy : Reads c ys r' p) : Reads c (xs ++ ys) r p := by
  have hpos := List.length_pos_iff.mpr hy.ne_nil
  obtain ⟨hxs, rfl⟩ := hx
  obtain ⟨hys, hall⟩ := hy
  refine ⟨?_, (receiveAll_append c xs ys r).trans hall⟩
  rw [receiveResults_append, hxs, hys, ← List.append_assoc, List.replicate_append_replicate,
    List.length_append, Nat.add_sub_assoc hpos]

/-! ## What a byte looks like on the wire -/

/-- The wire bytes that the decoder reads as the one byte `b` inside a frame: an ordinary byte, or
`ESCAPE` and a byte that is not `SYNC` (44_jvs_framing.md R194). `stuff` makes one of them. -/
inductive IsImage (c : Config) : List Byte → Byte → Prop
  | plain (b : Byte) (hsync : b ≠ c.jvsSync) (hescape : b ≠ c.jvsEscape) : IsImage c [b] b
  | pair (w : Byte) (hsync : w ≠ c.jvsSync) : IsImage c [c.jvsEscape, w] (w + 1)

theorem isImage_stuff {c : Config} (h : c.wf = true) (b : Byte) : IsImage c (stuff c b) b := by
  obtain ⟨_, _, hsync, hescape, _⟩ := wf_fixed h
  unfold stuff
  split_ifs with hb
  · have himage := IsImage.pair (c := c) (b - 1) (by
      rw [hsync]
      rw [hsync, hescape] at hb
      rcases hb with rfl | rfl <;> decide)
    rwa [BitVec.sub_add_cancel] at himage
  · exact .plain b (fun e => hb (.inl e)) fun e => hb (.inr e)

/-- An image is read as its byte, in every field (44_jvs_framing.md R194). -/
theorem IsImage.reads {c : Config} {image : List Byte} {b : Byte} {r : Rx} (h : IsImage c image b)
    (hwf : c.wf = true) (hstate : r.state ≠ .waitSync) (he : r.escape = false) :
    Reads c image r (rxOrdinary c b r) := by
  cases h with
  | plain _ hsync hescape =>
    rw [← rxByte_plain hsync hescape hstate he]
    exact reads_singleton c b r
  | pair w hsync =>
    have harm := reads_singleton c c.jvsEscape r
    rw [rxByte_escape (Encoding.jvsEscape_ne_jvsSync hwf) hstate he] at harm
    have hsecond : rxByte c w { r with escape := true } = rxOrdinary c (w + 1) r := by
      refine (rxByte_armed (r := { r with escape := true }) hsync hstate rfl).trans ?_
      rw [← he]
    have hread := reads_singleton c w { r with escape := true }
    rw [hsecond] at hread
    exact harm.silently.reads_append hread

/-- The wire bytes of a byte string, each byte in one of its images. -/
inductive AreImages (c : Config) : List Byte → List Byte → Prop
  | nil : AreImages c [] []
  | cons {image wire : List Byte} {b : Byte} {bytes : List Byte} (hb : IsImage c image b)
      (hbytes : AreImages c wire bytes) : AreImages c (image ++ wire) (b :: bytes)

theorem areImages_flatMap_stuff {c : Config} (h : c.wf = true) (bytes : List Byte) :
    AreImages c (bytes.flatMap (stuff c)) bytes := by
  induction bytes with
  | nil => exact .nil
  | cons b bytes ih => exact .cons (isImage_stuff h b) ih

theorem AreImages.append {c : Config} {wire wire' bytes bytes' : List Byte}
    (h : AreImages c wire bytes) (h' : AreImages c wire' bytes') :
    AreImages c (wire ++ wire') (bytes ++ bytes') := by
  induction h with
  | nil => exact h'
  | cons hb _ ih =>
    rw [List.append_assoc]
    exact .cons hb ih

/-! ## Receiving a frame -/

/-- The decoder inside a frame for `dest` that declares `n` data bytes, when it has read `bytes` of
them (44_jvs_framing.md R195 to R197). -/
structure DataRead (dest : Byte) (n : Nat) (bytes : List Byte) (r : Rx) : Prop where
  state : r.state = if bytes.length = n then .getChecksum else .getData
  escape : r.escape = false
  sum : r.sum = byteSum (dest :: BitVec.ofNat 8 (n + 1) :: bytes)
  dest : r.dest = dest
  need : r.need = n
  count : r.count = bytes.length
  buf : r.buf.take bytes.length = bytes
  room : n ≤ r.buf.length

/-- `SYNC`, the destination and the length open the data of a frame, from any decoder state. -/
theorem header_reads {c : Config} {n : Nat} (hwf : c.wf = true) (dest : Byte) (r : Rx)
    (hn : n ≤ 252) (hroom : n ≤ r.buf.length) :
    ∃ r', ReadsSilently c (c.jvsSync :: (stuff c dest ++ stuff c (BitVec.ofNat 8 (n + 1)))) r r'
      ∧ DataRead dest n [] r' := by
  have hsync := reads_singleton c c.jvsSync r
  rw [rxByte_sync] at hsync
  have hdest := (isImage_stuff hwf dest).reads (r := rxSync r) hwf nofun rfl
  rw [rxOrdinary_of_getDestination rfl] at hdest
  have hlen := (isImage_stuff hwf (BitVec.ofNat 8 (n + 1))).reads
    (r := { rxSync r with dest := dest, sum := dest, state := .getLength }) hwf nofun rfl
  rw [rxOrdinary_of_getLength rfl] at hlen
  refine ⟨_, hsync.silently.append (hdest.silently.append hlen.silently), ?_⟩
  have hnat := toNat_lengthByte hn
  have hok : ¬ badLength c (BitVec.ofNat 8 (n + 1)) = true := by
    rw [badLength_iff hwf, hnat]
    rintro (hzero | hlong)
    · rw [hzero] at hnat
      exact absurd hnat (Nat.succ_ne_zero n).symm
    · omega
  rw [rxLength_of_ok hok, hnat, Nat.add_sub_cancel]
  exact ⟨by simp [eq_comm], rfl, by simp [byteSum], rfl, rfl, rfl, rfl, hroom⟩

theorem DataRead.state_of_lt {dest : Byte} {n : Nat} {bytes : List Byte} {r : Rx}
    (h : DataRead dest n bytes r) (hlt : bytes.length < n) : r.state = .getData :=
  h.state.trans (if_neg hlt.ne)

/-- One data byte is stored behind the ones read and added to the sum (44_jvs_framing.md R197). -/
theorem DataRead.concat {dest : Byte} {n : Nat} {bytes : List Byte} {r : Rx} (b : Byte)
    (h : DataRead dest n bytes r) (hlt : bytes.length < n) :
    DataRead dest n (bytes ++ [b]) (rxData b r) where
  state := by simp [rxData, h.count, h.need]
  escape := h.escape
  dest := h.dest
  need := h.need
  count := by simp [rxData, h.count]
  sum := by
    rw [← List.cons_append, ← List.cons_append, byteSum_concat, ← h.sum]
    rfl
  buf := by
    have hlen : bytes.length < r.buf.length := hlt.trans_le h.room
    have hset : (r.buf.set bytes.length b).take (bytes.length + 1)
        = r.buf.take bytes.length ++ [b] := by
      rw [List.take_add_one, List.take_set_of_le le_rfl, List.getElem?_set_self hlen]
      rfl
    simpa [rxData, h.count, h.buf] using hset
  room := by simpa [rxData] using h.room

/-- The images of the data bytes still due are read as those bytes. -/
theorem DataRead.data_reads {c : Config} {dest : Byte} {n : Nat} {before wire bytes : List Byte}
    {r : Rx} (hwf : c.wf = true) (hwire : AreImages c wire bytes) (h : DataRead dest n before r)
    (hn : before.length + bytes.length = n) :
    ∃ r', ReadsSilently c wire r r' ∧ DataRead dest n (before ++ bytes) r' := by
  induction hwire generalizing before r with
  | nil => exact ⟨r, readsSilently_nil c r, by rwa [List.append_nil]⟩
  | @cons image wire b bytes hb _ ih =>
    have hlt : before.length < n := by rw [← hn]; simp
    have hstate := h.state_of_lt hlt
    have hread := hb.reads hwf (r := r) (by rw [hstate]; nofun) h.escape
    rw [rxOrdinary_of_getData hstate] at hread
    obtain ⟨r', hrest, hdone⟩ := ih (h.concat b hlt)
      (by rwa [List.length_append, Nat.add_assoc, Nat.add_comm [b].length])
    exact ⟨r', hread.silently.append hrest, by rwa [List.append_assoc] at hdone⟩

/-- The reception of a whole frame, from any decoder state and whatever images its data has: the
last byte completes it if the checksum byte is the sum, and else fails the check; what was read is in the
registers (44_jvs_framing.md R198). -/
theorem frame_reads {c : Config} {r : Rx} {dest cs : Byte} {data wire : List Byte}
    (hwf : c.wf = true) (hlen : data.length ≤ 252) (hbuf : r.buf.length = 252)
    (hwire : AreImages c wire data) :
    ∃ r', DataRead dest data.length data r'
      ∧ Reads c (c.jvsSync :: (stuff c dest ++ stuff c (BitVec.ofNat 8 (data.length + 1)))
            ++ wire ++ stuff c cs) r
          ({ r' with state := .waitSync },
            if cs = byteSum (dest :: BitVec.ofNat 8 (data.length + 1) :: data) then .complete
            else .checksumError) := by
  obtain ⟨r₁, hheader, hopened⟩ := header_reads hwf dest r hlen (hlen.trans_eq hbuf.symm)
  obtain ⟨r₂, hdata, hread : DataRead dest data.length data r₂⟩ :=
    hopened.data_reads hwf hwire (Nat.zero_add _)
  have hstate : r₂.state = .getChecksum := hread.state.trans (if_pos rfl)
  have hlast := (isImage_stuff hwf cs).reads (r := r₂) hwf (by rw [hstate]; nofun) hread.escape
  rw [rxOrdinary_of_getChecksum hstate] at hlast
  refine ⟨r₂, hread, ?_⟩
  rw [← hread.sum]
  exact (hheader.append hdata).reads_append hlast

theorem wireFrame_eq_append (c : Config) (dest : Byte) (data : List Byte) :
    wireFrame c dest data
      = c.jvsSync :: (stuff c dest ++ stuff c (BitVec.ofNat 8 (data.length + 1)))
        ++ data.flatMap (stuff c)
        ++ stuff c (byteSum (dest :: BitVec.ofNat 8 (data.length + 1) :: data)) := by
  simp [wireFrame, frameBody]

/-- Settles O39: the wire form is the image of each byte in turn, and its checksum byte is the sum
(`frame_reads`). -/
theorem frameRoundTrip : Obligations.FrameRoundTrip := by
  intro c dest data r hwf hlen hbuf
  obtain ⟨r', hread, hresults, hall⟩ := frame_reads (dest := dest)
    (cs := byteSum (dest :: BitVec.ofNat 8 (data.length + 1) :: data)) hwf hlen hbuf
    (areImages_flatMap_stuff hwf data)
  rw [← wireFrame_eq_append] at hresults hall
  rw [if_pos rfl] at hresults
  rw [hall]
  exact ⟨hresults, hread.dest, hread.count, hread.buf, rfl, hread.escape⟩

/-! ## A corrupted data byte -/

/-- The wire with one data byte's image replaced carries the data with that byte replaced. -/
theorem areImages_set {c : Config} {data image : List Byte} {k : Nat} {new : Byte}
    (hwf : c.wf = true) (hk : k < data.length) (himage : IsImage c image new) :
    AreImages c ((data.take k).flatMap (stuff c) ++ image ++ (data.drop (k + 1)).flatMap (stuff c))
      (data.set k new) := by
  rw [List.set_eq_take_append_cons_drop, if_pos hk, List.append_assoc]
  exact (areImages_flatMap_stuff hwf _).append (.cons himage (areImages_flatMap_stuff hwf _))

/-- Settles O40: the changed image is still the image of one byte, another than the sent one, so the
frame is received with that byte in its place (`frame_reads`) and its sum is not the checksum byte
(`byteSum_set_ne`). -/
theorem corruptedByteIsDetected : Obligations.CorruptedByteIsDetected := by
  rintro c dest len cs old data k image wire r hwf hlen hbuf hold rfl rfl hchange rfl
  obtain ⟨_, _, hsync, hescape, _⟩ := wf_fixed hwf
  have hcorrupted : ∃ new : Byte, new ≠ old ∧ IsImage c image new := by
    rcases hchange with ⟨_, _, new, hne, hs, he, rfl⟩ | ⟨_, w, hne, hs, rfl⟩
    · exact ⟨new, hne, .plain new (hsync ▸ hs) (hescape ▸ he)⟩
    · refine ⟨w + 1, fun e => hne (by rw [← e, BitVec.add_sub_cancel]), ?_⟩
      rw [← hescape]
      exact .pair w (hsync ▸ hs)
  obtain ⟨new, hne, himage⟩ := hcorrupted
  obtain ⟨hk, _⟩ := List.getElem?_eq_some_iff.mp hold
  have hsum : byteSum (dest :: BitVec.ofNat 8 (data.length + 1) :: data.set k new)
      ≠ byteSum (dest :: BitVec.ofNat 8 (data.length + 1) :: data) :=
    byteSum_set_ne (l := dest :: _ :: data) (k := k + 2) hold hne
  obtain ⟨r', _, hreads⟩ := frame_reads (dest := dest)
    (cs := byteSum (dest :: BitVec.ofNat 8 (data.length + 1) :: data)) hwf
    (List.length_set.trans_le hlen) hbuf (areImages_set hwf hk himage)
  rw [List.length_set, if_neg hsum.symm, hsync] at hreads
  simp only [List.flatMap_cons, List.flatMap_append, List.flatMap_nil, List.append_nil,
    List.append_assoc, List.cons_append] at hreads ⊢
  obtain ⟨hresults, hall⟩ := hreads
  exact ⟨hresults, congrArg Rx.state hall⟩

end Sys2Proof.Proofs.Framing
end

section
/-! The statements of 45_jvs_commands.md. -/

namespace Sys2Proof.Proofs.Commands

open Sys2Proof Sys2Proof.Machine Sys2Proof.Proofs.Registers

/-! ## The response of one command -/

/-- The command byte of a command (30_encoding.md R85). -/
def commandByte (c : Config) (cmd : Command) : Byte := (encodeCommand c cmd).headD 0x00

/-- The body a command answers (45_jvs_commands.md R230 to R239); `RETRANSMIT` and the unsupported
class answer none. -/
def commandBody (s : State) : Command → List Byte
  | .ioIdent => s.cfg.idString
  | .cmdRev => [s.cfg.cmdRev]
  | .jvsRev => [s.cfg.jvsRev]
  | .commVer => [s.cfg.commVer]
  | .featChk => s.cfg.features
  | .readSwitches a1 a2 => switchBody s a1.toNat a2.toNat
  | .readCoins a1 => coinBody s a1.toNat
  | _ => []

/-- The commands that answer a body: all of the ten but `RETRANSMIT`. -/
def Responds (cmd : Command) : Prop := cmd ≠ .retransmit ∧ ∀ x, cmd ≠ .unsupported x

/-- A command that answers a body does so after its side effects, and its length moves `cmd_ptr`. -/
theorem execCommand_eq_respond {cmd : Command} {s : State} (hmode : s.cfg.mode = .jvs)
    (hcmd : Responds cmd) :
    execCommand cmd s = .next (respond (commandByte s.cfg cmd) (encodeCommand s.cfg cmd).length
      (commandBody s cmd) (afterEffects cmd s)) := by
  obtain ⟨hretransmit, hunsupported⟩ := hcmd
  cases cmd with
  | retransmit => exact absurd rfl hretransmit
  | unsupported x => exact absurd rfl (hunsupported x)
  | _ => exact onlyIn_of_mode hmode

section Response

variable {cmd : Command} {s : State} {report : List Byte}

/-- The optional status byte stands before the body (45_jvs_commands.md R227). -/
theorem responseOf_eq_append {c : Config} (body : List Byte)
    (hreport : report = if c.perCommandReport then [c.statusSuccess] else []) :
    responseOf c body = report ++ body := by
  rw [hreport, responseOf]
  split <;> rfl

theorem exec_of_fits (hmode : s.cfg.mode = .jvs) (hcmd : Responds cmd)
    (hreport : report = if s.cfg.perCommandReport then [s.cfg.statusSuccess] else [])
    (hfits : s.txBuf.length + (report ++ commandBody s cmd).length ≤ s.cfg.jvsMaxPayload) :
    exec cmd.toInstr s = .next { afterEffects cmd s with
      txBuf := s.txBuf ++ (report ++ commandBody s cmd)
      cmdPtr := s.cmdPtr + (encodeCommand s.cfg cmd).length } := by
  rw [exec_toInstr, execCommand_eq_respond hmode hcmd]
  rw [← responseOf_eq_append _ hreport] at hfits ⊢
  rcases respond_cases (commandByte s.cfg cmd) (encodeCommand s.cfg cmd).length (commandBody s cmd)
    (afterEffects cmd s) with ⟨_, e⟩ | ⟨hlong, _⟩
  · rw [e]
    rfl
  · exact absurd hfits (Nat.not_le.mpr hlong)

theorem exec_of_overflow (hmode : s.cfg.mode = .jvs) (hcmd : Responds cmd)
    (hreport : report = if s.cfg.perCommandReport then [s.cfg.statusSuccess] else [])
    (hlong : s.cfg.jvsMaxPayload < s.txBuf.length + (report ++ commandBody s cmd).length) :
    exec cmd.toInstr s
      = .next (raiseUnsupported (commandByte s.cfg cmd) (afterEffects cmd s)) := by
  rw [exec_toInstr, execCommand_eq_respond hmode hcmd]
  rw [← responseOf_eq_append _ hreport] at hlong
  rcases respond_cases (commandByte s.cfg cmd) (encodeCommand s.cfg cmd).length (commandBody s cmd)
    (afterEffects cmd s) with ⟨hfits, _⟩ | ⟨_, e⟩
  · exact absurd hfits (Nat.not_le.mpr hlong)
  · rw [e]

end Response

/-- Settles O41: both answer an empty body after their side effects (`exec_of_fits`). -/
theorem resetAndAssignAddr : Obligations.ResetAndAssignAddr := by
  intro a1 s report hmode hreport hfits
  rw [← List.append_nil report] at hfits ⊢
  exact ⟨exec_of_fits (cmd := .reset a1) hmode ⟨nofun, nofun⟩ hreport hfits,
    exec_of_fits (cmd := .assignAddr a1) hmode ⟨nofun, nofun⟩ hreport hfits⟩

/-- Settles O42: a query has no side effect and answers its parameter (`exec_of_fits`). -/
theorem identityQueries : Obligations.IdentityQueries := by
  intro s i body report hmode hquery hreport hfits
  rcases hquery with ⟨rfl, rfl⟩ | ⟨rfl, rfl⟩ | ⟨rfl, rfl⟩ | ⟨rfl, rfl⟩ | ⟨rfl, rfl⟩
  · exact exec_of_fits (cmd := .ioIdent) hmode ⟨nofun, nofun⟩ hreport hfits
  · exact exec_of_fits (cmd := .cmdRev) hmode ⟨nofun, nofun⟩ hreport hfits
  · exact exec_of_fits (cmd := .jvsRev) hmode ⟨nofun, nofun⟩ hreport hfits
  · exact exec_of_fits (cmd := .commVer) hmode ⟨nofun, nofun⟩ hreport hfits
  · exact exec_of_fits (cmd := .featChk) hmode ⟨nofun, nofun⟩ hreport hfits

/-- Settles O45: `resend_eq` in its two cases, by the valid bit of `last_tx`. -/
theorem retransmitResendsLastPacket : Obligations.RetransmitResendsLastPacket := by
  intro s hmode
  have hexec : exec .retransmit s = .next (resend s) := onlyIn_of_mode hmode
  rw [hexec, resend_eq]
  exact ⟨fun hvalid => by rw [if_pos hvalid], fun hvalid => by simp [hvalid]⟩

/-- Settles O46: the command takes the condition, whose entry is `raiseUnsupported_eq`. -/
theorem unsupportedTruncatesAndStops : Obligations.UnsupportedTruncatesAndStops := by
  intro x s hmode
  have hexec : exec (.unsupported x) s = .next (raiseUnsupported x s) := onlyIn_of_mode hmode
  rw [hexec, raiseUnsupported_eq]

/-! ## The bodies of the switches and the coins -/

section Rows

variable {α : Type} {f : Nat → List α} {n : Nat}

theorem length_flatMap_range (hrow : ∀ k, (f k).length = n) (m : Nat) :
    ((List.range m).flatMap f).length = m * n := by
  simp [List.length_flatMap, hrow]

/-- The elements of rows of one length, laid end to end. -/
theorem getElem?_flatMap_range (hrow : ∀ k, (f k).length = n) {m p y : Nat} (hp : p < m)
    (hy : y < n) : ((List.range m).flatMap f)[p * n + y]? = (f p)[y]? := by
  induction m with
  | zero => exact absurd hp (Nat.not_lt_zero p)
  | succ m ih =>
    have hlength := length_flatMap_range hrow m
    rw [List.range_succ, List.flatMap_append, List.flatMap_singleton]
    rcases Nat.lt_succ_iff_lt_or_eq.mp hp with hlt | rfl
    · have hinside : p * n + y < m * n :=
        calc p * n + y < (p + 1) * n := by rw [Nat.succ_mul]; omega
          _ ≤ m * n := Nat.mul_le_mul_right n hlt
      rw [List.getElem?_append_left (hlength ▸ hinside), ih hlt]
    · rw [List.getElem?_append_right (hlength ▸ Nat.le_add_right _ _), hlength,
        Nat.add_sub_cancel_left]

end Rows

/-- The switch bytes of `READ_SWITCHES(a1, a2)` after `SYS`: one row for each player. -/
def switchRows (s : State) (a1 a2 : Nat) : List Byte :=
  (List.range a1).flatMap fun k => (List.range a2).map fun y => switchByte s (k + 1) y

theorem switchBody_eq (s : State) (a1 a2 : Nat) :
    switchBody s a1 a2 = s.sys :: switchRows s a1 a2 := rfl

theorem switchRows_length (s : State) (a1 a2 : Nat) : (switchRows s a1 a2).length = a1 * a2 :=
  length_flatMap_range (fun _ => by simp) a1

theorem switchRows_getElem? {s : State} {a1 a2 p y : Nat} (hp : p < a1) (hy : y < a2) :
    (switchRows s a1 a2)[p * a2 + y]? = some (switchByte s (p + 1) y) := by
  rw [switchRows, getElem?_flatMap_range (fun _ => by simp) hp hy]
  simp [hy]

theorem switchByte_of_held {s : State} {p y : Nat} (hs : s.inputsOk) (hp : p < s.cfg.jvsPlayers)
    (hy : y < s.cfg.switchBytes) :
    ∃ row, s.sw[p]? = some row ∧ row[y]? = some (switchByte s (p + 1) y) := by
  obtain ⟨hplayers, hrows, _⟩ := hs
  rw [← hplayers] at hp
  have hrow : y < s.sw[p].length := (hrows _ (List.getElem_mem hp)).symm ▸ hy
  refine ⟨_, List.getElem?_eq_getElem hp, ?_⟩
  rw [switchByte, if_pos ⟨hplayers ▸ hp, hy⟩]
  simp [hp, hrow]

theorem switchByte_of_not_held {s : State} {p y : Nat}
    (h : ¬ (p < s.cfg.jvsPlayers ∧ y < s.cfg.switchBytes)) : switchByte s (p + 1) y = 0x00 :=
  if_neg h

/-- Settles O43: the rows of the asked players behind `SYS`, byte by byte (`switchRows_getElem?`). -/
theorem readSwitchesBody : Obligations.ReadSwitchesBody := by
  intro a1 a2 s report hmode hs hreport hfits
  refine ⟨switchRows s a1.toNat a2.toNat, ?_, switchRows_length s _ _, fun p y hp hy => ?_⟩
  · refine exec_of_fits (cmd := .readSwitches a1 a2) hmode ⟨nofun, nofun⟩ hreport ?_
    simp only [commandBody, switchBody_eq, List.length_append, List.length_cons, switchRows_length]
    omega
  · rw [switchRows_getElem? hp hy]
    refine ⟨fun ⟨hplayer, hbyte⟩ => ?_, fun habsent => by rw [switchByte_of_not_held habsent]⟩
    obtain ⟨row, hrow, hget⟩ := switchByte_of_held hs hplayer hbyte
    exact ⟨row, hrow, hget.symm⟩

theorem coinBody_length (s : State) (a1 : Nat) : (coinBody s a1).length = a1 * 2 :=
  length_flatMap_range (f := fun slot => coinBytes (coinCount s slot)) (fun _ => rfl) a1

theorem coinBody_getElem? {s : State} {a1 slot y : Nat} (hslot : slot < a1) (hy : y < 2) :
    (coinBody s a1)[slot * 2 + y]? = (coinBytes (coinCount s slot))[y]? :=
  getElem?_flatMap_range (f := fun slot => coinBytes (coinCount s slot)) (fun _ => rfl) hslot hy

/-- The two bytes hold every number up to `JVS_COIN_MAX` (30_encoding.md R94). -/
theorem coinBytes_toNat {n : Nat} (h : n ≤ 16383) :
    ∃ hi lo : Byte, coinBytes n = [hi, lo] ∧ hi.toNat * 256 + lo.toNat = n ∧ hi.toNat < 64 := by
  refine ⟨_, _, rfl, ?_⟩
  simp only [BitVec.toNat_ofNat]
  omega

theorem coinCount_le {s : State} (hwf : s.cfg.wf = true) (hs : s.inputsOk) (slot : Nat) :
    coinCount s slot ≤ 16383 := by
  obtain ⟨_, _, _, _, _, hmax⟩ := wf_fixed hwf
  obtain ⟨_, _, hslots, hcoins⟩ := hs
  unfold coinCount
  split
  · rename_i hslot
    rw [← hslots] at hslot
    rw [List.getD_eq_getElem _ _ hslot, ← hmax]
    exact hcoins _ (List.getElem_mem hslot)
  · exact Nat.zero_le _

/-- Settles O44: two bytes for each asked slot (`coinBody_getElem?`), which hold its counter
(`coinBytes_toNat`). -/
theorem readCoinsBody : Obligations.ReadCoinsBody := by
  intro a1 s report hwf hmode hs hreport hfits
  obtain ⟨_, _, _, _, hmax, _⟩ := wf_fixed hwf
  refine ⟨coinBody s a1.toNat, ?_, (coinBody_length s _).trans (Nat.mul_comm _ _),
    fun c hc => ?_⟩
  · refine exec_of_fits (cmd := .readCoins a1) hmode ⟨nofun, nofun⟩ hreport ?_
    simp only [commandBody, List.length_append, coinBody_length, hmax]
    omega
  · obtain ⟨hi, lo, hbytes, hvalue, hhi⟩ := coinBytes_toNat (coinCount_le hwf hs c)
    rw [Nat.mul_comm 2 c]
    refine ⟨hi, lo, ?_, ?_, hvalue, hhi⟩
    · exact (coinBody_getElem? (y := 0) hc (by decide)).trans (by rw [hbytes]; rfl)
    · exact (coinBody_getElem? (y := 1) hc (by decide)).trans (by rw [hbytes]; rfl)

/-- Settles O47: each of the nine responds, and a response too long for the packet takes the
condition after the side effects (`exec_of_overflow`). -/
theorem responseOverflowIsUnsupported : Obligations.ResponseOverflowIsUnsupported := by
  intro s s0 i op body report hmode hreport hcases hlong
  obtain ⟨cmd, hcmd, rfl, rfl, hbody, rfl⟩ : ∃ cmd, Responds cmd ∧ i = cmd.toInstr
      ∧ op = commandByte s.cfg cmd ∧ body.length = (commandBody s cmd).length
      ∧ s0 = afterEffects cmd s := by
    rcases hcases with ⟨a1, rfl, rfl, rfl, rfl⟩ | ⟨a1, rfl, rfl, rfl, rfl⟩ | ⟨rfl, rfl, rfl, rfl⟩
      | ⟨rfl, rfl, rfl, rfl⟩ | ⟨rfl, rfl, rfl, rfl⟩ | ⟨rfl, rfl, rfl, rfl⟩ | ⟨rfl, rfl, rfl, rfl⟩
      | ⟨a1, a2, rfl, rfl, hlength, rfl⟩ | ⟨a1, rfl, rfl, hlength, rfl⟩
    · exact ⟨.reset a1, ⟨nofun, nofun⟩, rfl, rfl, rfl, rfl⟩
    · exact ⟨.assignAddr a1, ⟨nofun, nofun⟩, rfl, rfl, rfl, rfl⟩
    · exact ⟨.ioIdent, ⟨nofun, nofun⟩, rfl, rfl, rfl, rfl⟩
    · exact ⟨.cmdRev, ⟨nofun, nofun⟩, rfl, rfl, rfl, rfl⟩
    · exact ⟨.jvsRev, ⟨nofun, nofun⟩, rfl, rfl, rfl, rfl⟩
    · exact ⟨.commVer, ⟨nofun, nofun⟩, rfl, rfl, rfl, rfl⟩
    · exact ⟨.featChk, ⟨nofun, nofun⟩, rfl, rfl, rfl, rfl⟩
    · refine ⟨.readSwitches a1 a2, ⟨nofun, nofun⟩, rfl, rfl, hlength.trans ?_, rfl⟩
      simp [commandBody, switchBody_eq, switchRows_length, Nat.add_comm]
    · refine ⟨.readCoins a1, ⟨nofun, nofun⟩, rfl, rfl, hlength.trans ?_, rfl⟩
      simp [commandBody, coinBody_length, Nat.mul_comm]
  rw [List.length_append, hbody, ← List.length_append] at hlong
  rw [exec_of_overflow hmode hcmd hreport hlong, raiseUnsupported_eq]
  rfl

/-! ## The side-channel -/

/-- A bit of a byte after one of its bits was set to a level. -/
theorem getLsbD_setBitTo (b : Byte) {k bit : Nat} (level : Bool) (hbit : bit < 8) :
    (setBitTo b k level).getLsbD bit = if bit = k then level else b.getLsbD bit := by
  have hmask : (BitVec.ofNat 8 (2 ^ k)).getLsbD bit = decide (bit = k) := by
    rw [BitVec.getLsbD_ofNat, Nat.testBit_two_pow]
    simp [hbit, eq_comm]
  unfold setBitTo
  split <;> by_cases h : bit = k <;> simp_all

/-- A switch byte after `SET_SWITCH` inside `SW`: the byte of the switch has its bit set, every other
byte stays. -/
theorem switchesWith_byte {c : Config} {sw : List (List Byte)} {player button p y : Nat}
    {pressed : Bool} {old : Byte}
    (hin : 1 ≤ player ∧ player ≤ c.jvsPlayers ∧ button < 8 * c.switchBytes)
    (hold : (sw[p]?.bind fun row => row[y]?) = some old) :
    ((switchesWith c player button pressed sw)[p]?.bind fun row => row[y]?)
      = some (if p + 1 = player ∧ y = button / 8
          then setBitTo old (switchBit c button) pressed else old) := by
  obtain ⟨row, hrow, hbyte⟩ := Option.bind_eq_some_iff.mp hold
  have ⟨hplayer, _⟩ := hin
  rw [switchesWith, if_pos hin, List.getElem?_modify, hrow]
  by_cases hp : player - 1 = p
  · have hp' : p + 1 = player := by omega
    by_cases hy : button / 8 = y
    · simp [hp, hp', hy, hbyte]
    · simp [hp, hp', hy, hbyte, Ne.symm hy]
  · have hp' : p + 1 ≠ player := by omega
    simp [hp, hp', hbyte]

theorem switchesWith_of_outside {c : Config} {player button : Nat}
    (hout : ¬ (1 ≤ player ∧ player ≤ c.jvsPlayers ∧ button < 8 * c.switchBytes)) (pressed : Bool)
    (sw : List (List Byte)) : switchesWith c player button pressed sw = sw :=
  if_neg hout

/-- Settles O54: one byte of `SW` is written (`switchesWith_byte`), and in it one bit
(`getLsbD_setBitTo`). -/
theorem setSwitchWritesOneBit : Obligations.SetSwitchWritesOneBit := by
  intro player button pressed s hmode ⟨hplayers, hrows, hcoins⟩
  obtain ⟨hlength, hrows'⟩ := Invariant.switchesWith_dimensions player button pressed hrows
  refine ⟨switchSet player button pressed s, onlyIn_of_mode hmode, rfl, fun hout => ?outside,
    fun hlo hhi hbutton p y bit old new hbit hold hnew => ?inside,
    ⟨hlength.trans hplayers, hrows', hcoins⟩⟩
  case outside => rw [switchSet, switchesWith_of_outside hout]
  case inside =>
    obtain rfl := Option.some.inj
      (hnew.symm.trans (switchesWith_byte ⟨hlo, hhi, hbutton⟩ hold))
    rw [← switchBit]
    by_cases hbyte : p + 1 = player ∧ y = button / 8
    · rw [if_pos hbyte, getLsbD_setBitTo old pressed hbit]
      simp [hbyte]
    · rw [if_neg hbyte, if_neg fun ⟨hp, hy, _⟩ => hbyte ⟨hp, hy⟩]

/-- Settles O55, by `coinsWith_getElem?`: a slot of `COIN` is below `JVS_COIN_SLOTS`. -/
theorem incCoinSaturates : Obligations.IncCoinSaturates := by
  intro slot s hmode ⟨_, _, hslots, _⟩
  refine ⟨_, onlyIn_of_mode hmode, rfl, fun hout => ?_, fun k n hk => ?_⟩
  · rw [coinsWith, if_neg (Nat.not_lt.mpr hout)]
  · obtain ⟨hlt, _⟩ := List.getElem?_eq_some_iff.mp hk
    have hiff : slot < s.cfg.coinSlots ∧ k = slot ↔ k = slot :=
      and_iff_right_of_imp fun e => by omega
    rw [coinsWith_getElem? slot hk]
    simp only [hiff]

/-! ## The command at `cmd_ptr` -/

theorem commandAt_of_ok {s : State} {cmd : Command} {rest : List Byte}
    (h : decodeCommand s.cfg (pendingBytes s) = .ok (cmd, rest)) : commandAt s = cmd := by
  simp [commandAt, h]

theorem commandAt_of_error {s : State} {e : DecodeReject}
    (h : decodeCommand s.cfg (pendingBytes s) = .error e) :
    commandAt s = .unsupported ((pendingBytes s).headD 0x00) := by
  simp [commandAt, h]

/-- A step inside the frame is the command at `cmd_ptr` (45_jvs_commands.md R221). -/
theorem step_of_command {s : State} (hwf : s.cfg.wf = true) (hphase : s.phase = .walk)
    (hptr : s.cmdPtr < s.rx.count) : step s = exec (commandAt s).toInstr s := by
  simp [step, walkStep, hwf, hphase, hptr]

/-- Settles O10: what the bytes at `cmd_ptr` decode to is the command there. -/
theorem stepRunsTheDecodedCommand : Obligations.StepRunsTheDecodedCommand := by
  intro s i rest hwf hphase hptr hdecode _
  obtain ⟨cmd, rfl, hcmd⟩ := Encoding.decode_data_eq_ok hdecode
  rw [step_of_command hwf hphase hptr, commandAt_of_ok hcmd]

/-- A command byte with arguments does not decode without them (45_jvs_commands.md R222); that the
decoder reads it as no other command is that the ten bytes differ. -/
theorem decodeCommand_of_missing {c : Config} {op : Byte} {args : List Byte}
    (hops : c.ops.toList.Nodup)
    (h : args = [] ∧ (op = c.ops.reset ∨ op = c.ops.assignAddr ∨ op = c.ops.readCoins)
      ∨ args.length < 2 ∧ op = c.ops.readSwitches) :
    decodeCommand c (op :: args) = .error (.incomplete op) := by
  have hlater : c.ops.toList.reverse.Nodup := List.nodup_reverse.mpr hops
  simp only [JvsOps.toList, List.reverse_cons, List.reverse_nil, List.nil_append,
    List.cons_append, List.nodup_cons, List.mem_cons, not_or] at hlater
  rcases h with ⟨rfl, rfl | rfl | rfl⟩ | ⟨hshort, rfl⟩
  · simp [decodeCommand, oneArg]
  · simp [decodeCommand, oneArg, hlater]
  · simp [decodeCommand, oneArg, hlater]
  · match args, hshort with
    | [], _ => simp [decodeCommand, twoArgs, hlater]
    | [a1], _ => simp [decodeCommand, twoArgs, hlater]

/-- Settles O11: the bytes do not decode (`decodeCommand_of_missing`), so the command at `cmd_ptr` is
their first byte's. -/
theorem stepTakesIncompleteCommandAsUnsupported :
    Obligations.StepTakesIncompleteCommandAsUnsupported := by
  intro s op args size hwf hphase hptr hbytes hshort hop
  have hpending : pendingBytes s = op :: args := hbytes
  have hmissing : decodeCommand s.cfg (pendingBytes s) = .error (.incomplete op) := by
    rw [hpending]
    refine decodeCommand_of_missing (Encoding.wf_ops_nodup hwf) ?_
    rcases hop with ⟨rfl, hop⟩ | ⟨rfl, hop⟩
    · exact .inl ⟨List.length_eq_zero_iff.mp (by omega), hop⟩
    · exact .inr ⟨by omega, hop⟩
  rw [step_of_command hwf hphase hptr, commandAt_of_error hmissing, hpending]
  rfl

/-- Settles O16: past the last command the step is `endDispatch`. -/
theorem stepEndsTheWalk : Obligations.StepEndsTheWalk := by
  intro s hwf hphase hptr
  have hstep : step s = .next (endDispatch s) := by
    simp [step, walkStep, hwf, hphase, Nat.not_lt.mpr hptr]
  rw [hstep, endDispatch_eq]

/-! ## The start of a dispatch -/

/-- The addressing test (45_jvs_commands.md R220). -/
theorem isAddressed_iff (s : State) :
    s.isAddressed = true ↔ s.rx.dest = s.cfg.broadcastAddr
      ∨ (s.proto = .addressed ∧ s.rx.dest = s.deviceId) := by
  simp [State.isAddressed, State.sense]

/-- The start of a walk: a packet with its status byte, before the first command. -/
def walkStart (s : State) : State :=
  { s with txBuf := [s.cfg.statusSuccess], cmdPtr := 0, phase := .walk }

theorem exec_jvsDispatch {s : State} (hmode : s.cfg.mode = .jvs) :
    exec .jvsDispatch s = walkFrame s.rx.count (startDispatch s) := by
  have hexec : exec .jvsDispatch s
      = andThen (onlyIn .jvs s (startDispatch s)) (walkFrame s.rx.count) := rfl
  rw [hexec, onlyIn_of_mode hmode, andThen_next]

theorem exec_jvsDispatch_of_addressed {s : State} (hmode : s.cfg.mode = .jvs)
    (h : s.isAddressed = true) : exec .jvsDispatch s = walkFrame s.rx.count (walkStart s) := by
  rw [exec_jvsDispatch hmode, startDispatch, if_pos h]
  rfl

theorem exec_jvsDispatch_of_not_addressed {s : State} (hmode : s.cfg.mode = .jvs)
    (h : ¬ s.isAddressed = true) :
    exec .jvsDispatch s = .next { s with phase := .boundary, ret := .unit } := by
  rw [exec_jvsDispatch hmode, startDispatch, if_neg h]
  exact walkFrame_done nofun

/-- Settles O48: the addressing test fails, so no walk begins. -/
theorem unaddressedFrameIsDropped : Obligations.UnaddressedFrameIsDropped := by
  intro s hmode hdest hid
  refine exec_jvsDispatch_of_not_addressed hmode fun h => ?_
  rcases (isAddressed_iff s).mp h with hbroadcast | ⟨hproto, hdevice⟩
  · exact hdest hbroadcast
  · rcases hid with huninit | hother
    · cases huninit.symm.trans hproto
    · exact hother hdevice

/-! ## A command of the walk -/

/-- A command after which the walk goes on has appended its response and moved `cmd_ptr` past
itself. -/
theorem pendingBytes_of_walk {cmd : Command} {s t : State}
    (h : CommandOutcome cmd s t) (hphase : t.phase = .walk) :
    pendingBytes t = (pendingBytes s).drop (encodeCommand s.cfg cmd).length := by
  cases h with
  | answered body _ _ => exact (List.drop_drop).symm
  | unsupported op _ => cases hphase
  | resent _ => cases hphase

/-- The walk goes on only behind a command that decodes, with the bytes after it still pending. -/
theorem decodeCommand_of_walk {s t : State} (h : CommandOutcome (commandAt s) s t)
    (hphase : t.phase = .walk) :
    decodeCommand s.cfg (pendingBytes s) = .ok (commandAt s, pendingBytes t) := by
  cases hdecode : decodeCommand s.cfg (pendingBytes s) with
  | error e =>
    rw [commandAt_of_error hdecode] at h
    cases h with
    | answered body hcmd _ => exact absurd rfl (hcmd _)
    | unsupported op _ => cases hphase
    | resent _ => cases hphase
  | ok p =>
    obtain ⟨cmd, rest⟩ := p
    obtain ⟨_, hbytes⟩ := Encoding.decodeCommand_isHead hdecode
    rw [pendingBytes_of_walk h hphase, commandAt_of_ok hdecode, hbytes, List.drop_left]

/-! ## A dispatch as a program -/

theorem pendingBytes_length {s : State} (hbuf : s.rx.count ≤ s.rx.buf.length) :
    (pendingBytes s).length = s.rx.count - s.cmdPtr := by
  simp [pendingBytes, hbuf]

/-- The walk is the run of the program whose bytes are pending, by induction on the program. -/
theorem walkFrame_eq_runProgram {c : Config} {n : Nat} {s : State} {program : List Command}
    (hcfg : s.cfg = c) (hwf : c.wf = true) (hmode : s.cfg.mode = .jvs) (hphase : s.phase = .walk)
    (hprogram : ∀ cmd ∈ program, cmd.toInstr.wf c = true) (hbuf : s.rx.count ≤ s.rx.buf.length)
    (hbytes : pendingBytes s = assemble c program) (hn : program.length ≤ n) :
    walkFrame n s = runProgram program s := by
  have hlength := pendingBytes_length hbuf
  induction program generalizing n s with
  | nil =>
    rw [hbytes] at hlength
    exact walkFrame_end hphase (Nat.le_of_sub_eq_zero hlength.symm)
  | cons cmd program ih =>
    obtain ⟨hcmd, hrest⟩ := List.forall_mem_cons.mp hprogram
    obtain ⟨m, rfl⟩ : ∃ m, n = m + 1 := Nat.exists_eq_add_one.mpr (Nat.zero_lt_of_lt hn)
    rw [Encoding.assemble_cons] at hbytes
    have hat : commandAt s = cmd := commandAt_of_ok (rest := assemble c program) <| by
      rw [hbytes, hcfg]
      exact Encoding.decodeCommand_encodeCommand _ (Encoding.wf_ops_nodup hwf) hcmd
    have hptr : s.cmdPtr < s.rx.count := by
      have hpos := encodeCommand_length_pos c cmd
      rw [hbytes, List.length_append] at hlength
      omega
    obtain ⟨t, ht⟩ := execCommand_next cmd hmode
    rw [walkFrame_command hphase hptr, hat, runProgram, exec_toInstr, ht, andThen_next, andThen_next]
    by_cases hwalk : t.phase = .walk
    · have hout := execCommand_outcome ht
      have hkept := hout.kept
      rw [if_pos hwalk]
      have hbuf' : t.rx.count ≤ t.rx.buf.length := hkept.rx ▸ hbuf
      refine ih (hkept.cfg.trans hcfg) (hkept.cfg ▸ hmode) hwalk hrest hbuf' ?_
        (Nat.le_of_succ_le_succ hn) (pendingBytes_length hbuf')
      rw [pendingBytes_of_walk hout hwalk, hbytes, hcfg, List.drop_left]
    · rw [if_neg hwalk, walkFrame_done hwalk]

theorem length_le_assemble (c : Config) (program : List Command) :
    program.length ≤ (assemble c program).length := by
  induction program with
  | nil => exact Nat.zero_le _
  | cons cmd program ih =>
    have hpos := encodeCommand_length_pos c cmd
    rw [Encoding.assemble_cons, List.length_append, List.length_cons]
    omega

/-- Settles O49: the walk of an addressed frame is the run of its program
(`walkFrame_eq_runProgram`), which has no more commands than the frame has bytes. -/
theorem dispatchRunsTheFramesCommands : Obligations.DispatchRunsTheFramesCommands := by
  intro s program hwf hmode haddressed hprogram hbuf hbytes
  have hcount : (s.rx.buf.take s.rx.count).length = s.rx.count := List.length_take_of_le hbuf
  rw [exec_jvsDispatch_of_addressed hmode ((isAddressed_iff s).mpr haddressed)]
  refine walkFrame_eq_runProgram (s := walkStart s) rfl hwf hmode rfl hprogram hbuf hbytes ?_
  calc program.length ≤ (assemble s.cfg program).length := length_le_assemble _ _
    _ = s.rx.count := by rw [← hbytes, hcount]

/-! ## How a dispatch ends -/

/-- A dispatch from `s` has ended in `t` with the one frame of `data`, which is then the recorded
packet (45_jvs_commands.md R224). -/
structure Sent (s t : State) (data : List Byte) (es : List Event) : Prop where
  trace : t.trace = s.trace ++ es
  phase : t.phase = .boundary
  frames : framesSent es = [wireFrame s.cfg s.cfg.masterAddr data]
  nonempty : 1 ≤ data.length
  fits : data.length ≤ 252
  recorded : t.lastTx = ⟨true, data⟩

/-- A dispatch from `s` has ended in `t` with nothing sent. -/
structure Silent (s t : State) (es : List Event) : Prop where
  trace : t.trace = s.trace ++ es
  phase : t.phase = .boundary
  frames : framesSent es = []

/-- The dispatch of a frame from `s` has ended in `t`: with one frame sent, unless `RETRANSMIT` is
among its commands and no packet was recorded (93_implementation_defined.md U5). -/
def EndsIn (s t : State) (cmds : List Command) : Prop :=
  ∃ es, (∃ data, Sent s t data es)
    ∨ (Silent s t es ∧ ¬ s.lastTx.valid = true ∧ .retransmit ∈ cmds)

/-- Where a dispatch ends is judged by the record, the parameters and `last_tx` it began with. -/
theorem EndsIn.of_kept {s u t : State} {cmds cmds' : List Command} (h : EndsIn u t cmds)
    (hcfg : u.cfg = s.cfg) (htrace : u.trace = s.trace) (hlast : u.lastTx = s.lastTx)
    (hcmds : .retransmit ∈ cmds → .retransmit ∈ cmds') : EndsIn s t cmds' := by
  obtain ⟨es, ⟨data, hsent⟩ | ⟨hsilent, hvalid, hmem⟩⟩ := h
  · exact ⟨es, .inl ⟨data, htrace ▸ hsent.trace, hsent.phase, hcfg ▸ hsent.frames, hsent.nonempty,
      hsent.fits, hsent.recorded⟩⟩
  · exact ⟨es, .inr ⟨⟨htrace ▸ hsilent.trace, hsilent.phase, hsilent.frames⟩, hlast ▸ hvalid,
      hcmds hmem⟩⟩

/-- A walk in a `Jvs` build, whose packet and recorded packet fit a frame (10_state.md R37, R46). -/
structure Walking (s : State) : Prop where
  maxPayload : s.cfg.jvsMaxPayload = 252
  mode : s.cfg.mode = .jvs
  phase : s.phase = .walk
  nonempty : 1 ≤ s.txBuf.length
  fits : s.txBuf.length ≤ 252
  lastTx : s.lastTx.valid = true → 1 ≤ s.lastTx.bytes.length ∧ s.lastTx.bytes.length ≤ 252

theorem endDispatch_endsIn {s : State} (h : Walking s) (cmds : List Command) :
    EndsIn s (endDispatch s) cmds :=
  ⟨_, .inl ⟨s.txBuf, rfl, rfl, rfl, h.nonempty, h.fits, rfl⟩⟩

theorem raiseUnsupported_endsIn (op : Byte) (cmd : Command) (s : State) (cmds : List Command) :
    EndsIn s (raiseUnsupported op (afterEffects cmd s)) cmds := by
  rw [raiseUnsupported_eq]
  exact ⟨_, .inl ⟨[s.cfg.statusUnsupported], rfl, rfl, rfl, by simp, by simp, rfl⟩⟩

theorem resend_endsIn {s : State} (h : Walking s) : EndsIn s (resend s) [.retransmit] := by
  rw [resend_eq]
  by_cases hvalid : s.lastTx.valid = true
  · obtain ⟨hpos, hfits⟩ := h.lastTx hvalid
    rw [if_pos hvalid]
    exact ⟨_, .inl ⟨s.lastTx.bytes, rfl, rfl, rfl, hpos, hfits, by rw [← hvalid]⟩⟩
  · rw [if_neg hvalid]
    exact ⟨_, .inr ⟨⟨rfl, rfl, rfl⟩, hvalid, List.mem_singleton_self _⟩⟩

/-- A command either lets the walk go on, nothing sent, or ends the dispatch. -/
theorem goes_on_or_endsIn {cmd : Command} {s t : State} (h : CommandOutcome cmd s t)
    (hs : Walking s) :
    (Walking t ∧ t.trace = s.trace ∧ t.lastTx = s.lastTx)
      ∨ (t.phase ≠ .walk ∧ EndsIn s t [cmd]) := by
  cases h with
  | answered body _ hroom =>
    have hlength : (s.txBuf ++ body).length = s.txBuf.length + body.length := List.length_append
    refine .inl ⟨⟨hs.maxPayload, hs.mode, hs.phase, ?_, ?_, hs.lastTx⟩, rfl, rfl⟩
    · exact hlength ▸ Nat.le_add_right_of_le hs.nonempty
    · exact hlength ▸ hs.maxPayload ▸ hroom
  | unsupported op _ =>
    refine .inr ⟨?_, raiseUnsupported_endsIn op cmd s _⟩
    rw [raiseUnsupported_eq]
    nofun
  | resent hcmd =>
    refine .inr ⟨?_, hcmd ▸ resend_endsIn hs⟩
    rw [resend_eq]
    nofun

/-- One of the ten commands at `cmd_ptr` is a command of the frame; the unsupported class may also
stand for bytes that do not decode. -/
theorem commandAt_mem_disassemble {s : State} (n : Nat) (h : ∀ x, commandAt s ≠ .unsupported x) :
    commandAt s ∈ disassemble s.cfg (n + 1) (pendingBytes s) := by
  cases hdecode : decodeCommand s.cfg (pendingBytes s) with
  | error e => exact absurd (commandAt_of_error hdecode) (h _)
  | ok p =>
    obtain ⟨cmd, rest⟩ := p
    rw [Encoding.disassemble_of_ok hdecode, commandAt_of_ok hdecode]
    exact List.mem_cons_self

/-- The commands pending after one that lets the walk go on were pending before it. -/
theorem mem_disassemble_of_walk {n : Nat} {s t : State} {cmd : Command}
    (h : CommandOutcome (commandAt s) s t) (hphase : t.phase = .walk)
    (hmem : cmd ∈ disassemble t.cfg n (pendingBytes t)) :
    cmd ∈ disassemble s.cfg (n + 1) (pendingBytes s) := by
  rw [Encoding.disassemble_of_ok (decodeCommand_of_walk h hphase), ← h.kept.cfg]
  exact List.mem_cons_of_mem _ hmem

/-- Every walk ends (45_jvs_commands.md R220), by induction on the commands it may still take. -/
theorem walkFrame_endsIn (n : Nat) {s : State} (hs : Walking s) :
    ∃ t, walkFrame n s = .next t ∧ EndsIn s t (disassemble s.cfg n (pendingBytes s)) := by
  induction n generalizing s with
  | zero => exact ⟨_, by rw [walkFrame_zero, if_pos hs.phase], endDispatch_endsIn hs _⟩
  | succ n ih =>
    by_cases hptr : s.cmdPtr < s.rx.count
    · obtain ⟨u, hu⟩ := execCommand_next (commandAt s) hs.mode
      have hout := execCommand_outcome hu
      rw [walkFrame_command hs.phase hptr, hu, andThen_next]
      rcases goes_on_or_endsIn hout hs with ⟨hwalking, htrace, hlast⟩ | ⟨hphase, hends⟩
      · obtain ⟨t, ht, hends⟩ := ih hwalking
        exact ⟨t, ht, hends.of_kept hout.kept.cfg htrace hlast
          (mem_disassemble_of_walk hout hwalking.phase)⟩
      · refine ⟨u, walkFrame_done hphase, hends.of_kept rfl rfl rfl fun hmem => ?_⟩
        have hat : commandAt s = .retransmit := (List.mem_singleton.mp hmem).symm
        rw [← hat]
        exact commandAt_mem_disassemble n (by rw [hat]; nofun)
    · exact ⟨_, walkFrame_end hs.phase (Nat.le_of_not_lt hptr), endDispatch_endsIn hs _⟩

/-- Settles O50: an addressed frame's walk ends with its answer, or with the `RETRANSMIT` of U5
(`walkFrame_endsIn`); any other frame is dropped. -/
theorem dispatchAnswersOnce : Obligations.DispatchAnswersOnce := by
  intro s addressed hwf hmode hlast haddressed
  obtain ⟨_, _, _, _, hmax, _⟩ := wf_fixed hwf
  rw [← isAddressed_iff] at haddressed
  by_cases h : s.isAddressed = true
  · have hstart : Walking (walkStart s) :=
      ⟨hmax, hmode, rfl, le_rfl, by simp [walkStart], hlast⟩
    obtain ⟨t, ht, es, hends⟩ := walkFrame_endsIn s.rx.count hstart
    rw [← exec_jvsDispatch_of_addressed hmode h] at ht
    refine ⟨t, es, ht, ?_⟩
    rcases hends with ⟨data, hsent⟩ | ⟨hsilent, hvalid, hmem⟩
    · have hframes := hsent.frames
      exact ⟨hsent.trace, hsent.phase,
        .inr ⟨data, hframes, hsent.nonempty, hsent.fits, hsent.recorded⟩,
        fun _ _ => by rw [hframes]; nofun, fun hno => absurd (haddressed.mpr h) hno⟩
    · refine ⟨hsilent.trace, hsilent.phase, .inl hsilent.frames, fun _ hpremise => ?_,
        fun _ => hsilent.frames⟩
      rcases hpremise with hrecorded | hnone
      · exact absurd hrecorded hvalid
      · exact absurd hmem hnone
  · exact ⟨_, [], exec_jvsDispatch_of_not_addressed hmode h, (List.append_nil _).symm, rfl,
      .inl rfl, fun hyes => absurd (haddressed.mp hyes) h, fun _ => rfl⟩

/-! ## The protocol registers -/

/-- A command leaves the protocol registers as its side effects say. -/
theorem proto_after_command {cmd : Command} {s t : State} (h : CommandOutcome cmd s t) :
    (t.proto, t.deviceId) = protoAfter s cmd := by
  cases h with
  | answered body _ _ => rfl
  | unsupported op _ => rw [raiseUnsupported_eq]; rfl
  | resent hcmd => rw [resend_eq, hcmd]; rfl

/-- Neither `RESET` nor `ASSIGN_ADDR`. -/
def KeepsProto (cmd : Command) : Prop := (∀ a, cmd ≠ .reset a) ∧ ∀ a, cmd ≠ .assignAddr a

theorem walkFrame_proto {n : Nat} {s t : State} (h : walkFrame n s = .next t)
    (hcmds : ∀ cmd ∈ disassemble s.cfg n (pendingBytes s), KeepsProto cmd) :
    t.proto = s.proto ∧ t.deviceId = s.deviceId := by
  induction n generalizing s with
  | zero =>
    rw [walkFrame_zero] at h
    obtain rfl := Host.Outcome.next.inj h
    split <;> exact ⟨rfl, rfl⟩
  | succ n ih =>
    by_cases hphase : s.phase = .walk
    · by_cases hptr : s.cmdPtr < s.rx.count
      · rw [walkFrame_command hphase hptr] at h
        obtain ⟨u, hu, hrest⟩ := andThen_eq_next h
        have hout := execCommand_outcome hu
        have hat : KeepsProto (commandAt s) := by
          by_cases hten : ∀ x, commandAt s ≠ .unsupported x
          · exact hcmds _ (commandAt_mem_disassemble n hten)
          · obtain ⟨x, hx⟩ := not_forall_not.mp hten
            rw [hx]
            exact ⟨nofun, nofun⟩
        obtain ⟨hreset, hassign⟩ := hat
        obtain ⟨hproto, hid⟩ := hout.proto_of_ne hreset hassign
        by_cases hwalk : u.phase = .walk
        · obtain ⟨hproto', hid'⟩ := ih hrest fun cmd hmem =>
            hcmds cmd (mem_disassemble_of_walk hout hwalk hmem)
          exact ⟨hproto'.trans hproto, hid'.trans hid⟩
        · rw [walkFrame_done hwalk] at hrest
          exact Host.Outcome.next.inj hrest ▸ ⟨hproto, hid⟩
      · rw [walkFrame_end hphase (Nat.le_of_not_lt hptr)] at h
        exact Host.Outcome.next.inj h ▸ ⟨rfl, rfl⟩
    · rw [walkFrame_done hphase] at h
      exact Host.Outcome.next.inj h ▸ ⟨rfl, rfl⟩

theorem exec_jvsDispatch_proto {s t : State} (h : exec .jvsDispatch s = .next t)
    (hcmds : ∀ cmd ∈ disassemble s.cfg s.rx.count (s.rx.buf.take s.rx.count), KeepsProto cmd) :
    t.proto = s.proto ∧ t.deviceId = s.deviceId := by
  have hmode : s.cfg.mode = .jvs := execJvsDispatch_mode h
  by_cases haddressed : s.isAddressed = true
  · rw [exec_jvsDispatch_of_addressed hmode haddressed] at h
    exact walkFrame_proto (s := walkStart s) h hcmds
  · rw [exec_jvsDispatch_of_not_addressed hmode haddressed] at h
    exact Host.Outcome.next.inj h ▸ ⟨rfl, rfl⟩

/-- The row of the protocol registers in the access matrix (10_state.md R53). -/
theorem exec_proto_of_ne {i : Instr} {s t : State} (h : exec i s = .next t)
    (hpoll : (∀ now, i ≠ .poll now) ∨ s.cfg.mode ≠ .jvs) (hdispatch : i ≠ .jvsDispatch)
    (hreset : ∀ a, i ≠ .reset a) (hassign : ∀ a, i ≠ .assignAddr a) :
    t.proto = s.proto ∧ t.deviceId = s.deviceId := by
  obtain ⟨_, _, _, _, _, _, _, _, _, _, hproto, _⟩ :=
    accessMatrix i s t _ _ Iff.rfl Iff.rfl h
  exact hproto hpoll hdispatch hreset hassign

/-- Settles O56: `RESET` and `ASSIGN_ADDR` have their side effects (`proto_after_command`), a dispatch
those of its commands (`exec_jvsDispatch_proto`), and the rest is the access matrix. -/
theorem onlyResetAndAssignMoveTheSenseLine : Obligations.OnlyResetAndAssignMoveTheSenseLine := by
  intro i s t h
  refine ⟨by simp [State.sense], ?_⟩
  cases i with
  | assignAddr a1 =>
    exact Prod.mk.inj (proto_after_command (execCommand_outcome (cmd := .assignAddr a1) h))
  | reset a1 => exact Prod.mk.inj (proto_after_command (execCommand_outcome (cmd := .reset a1) h))
  | jvsDispatch => exact exec_jvsDispatch_proto h
  | poll now => exact fun hmode => exec_proto_of_ne h (.inr hmode) nofun nofun nofun
  | _ => exact exec_proto_of_ne h (.inl nofun) nofun nofun nofun

end Sys2Proof.Proofs.Commands
end

section
/-! The statements of 46_pipeline.md. -/

namespace Sys2Proof.Proofs.Pipeline

open Sys2Proof Sys2Proof.Machine Sys2Proof.Proofs.Registers

/-! ## `RECONFIG` -/

/-- The type `Function` in a configuration: buttons up to 29 (10_state.md R28). -/
theorem all_funcOk_iff {c : Config} {row : List Func} (hwf : c.wf = true) :
    row.all (fun f => f.ok c) = true ↔ ∀ b, .button b ∈ row → b ≤ 29 := by
  obtain ⟨_, hbutton, _⟩ := wf_fixed hwf
  rw [List.all_eq_true]
  constructor
  · intro h b hb
    simpa [Func.ok, hbutton] using h _ hb
  · intro h f hf
    cases f with
    | button b => simpa [Func.ok, hbutton] using h b hf
    | _ => rfl

/-- A complete table, in the numbers of a configuration (10_state.md R27, R28). -/
theorem tableOk_iff {c : Config} {t : Table} (hwf : c.wf = true) :
    tableOk c t = true ↔ t.length = c.nPlayers
      ∧ ∀ row ∈ t, row.length = 17 ∧ ∀ b, .button b ∈ row → b ≤ 29 := by
  obtain ⟨hpins, _⟩ := wf_fixed hwf
  rw [tableOk, Bool.and_eq_true, beq_iff_eq, List.all_eq_true]
  simp only [Bool.and_eq_true, beq_iff_eq, all_funcOk_iff hwf, hpins]

theorem exec_reconfig_of_complete {table : Table} {s : State} (h : tableOk s.cfg table = true) :
    exec (.reconfig table) s = .next { s with map := table, reconfigPending := false } :=
  if_pos h

theorem exec_reconfig_of_incomplete {table : Table} {s : State}
    (h : ¬ tableOk s.cfg table = true) : exec (.reconfig table) s = .refused .incompleteTable :=
  if_neg h

/-- Settles O31: the test of `RECONFIG` is `tableOk`, which in a configuration is the completeness
the statement spells out (`tableOk_iff`). -/
theorem reconfigReplacesTheWholeTable : Obligations.ReconfigReplacesTheWholeTable := by
  intro table s complete hwf hcomplete
  rw [← tableOk_iff hwf] at hcomplete
  exact ⟨fun h => exec_reconfig_of_complete (hcomplete.mp h),
    fun h => exec_reconfig_of_incomplete (mt hcomplete.mpr h)⟩

/-! ## The iteration boundary -/

theorem step_of_boundary {s : State} (hwf : s.cfg.wf = true) (hphase : s.phase = .boundary) :
    step s = boundaryStep s := by
  simp [step, hwf, hphase]

theorem boundaryStep_of_pending {s : State} (h : s.reconfigPending = true) :
    boundaryStep s = exec (.reconfig s.reconfigTable) s :=
  if_pos h

section Acts

variable {s : State} (hpending : s.reconfigPending = false)

include hpending

theorem boundaryStep_of_setSwitch {player button : Nat} {pressed : Bool}
    (h : nextAct s = .setSwitch player button pressed) :
    boundaryStep s = exec (.setSwitch player button pressed) (takeAct s) := by
  simp [boundaryStep, hpending, h]

theorem boundaryStep_of_incCoin {slot : Nat} (h : nextAct s = .incCoin slot) :
    boundaryStep s = exec (.incCoin slot) (takeAct s) := by
  simp [boundaryStep, hpending, h]

theorem boundaryStep_of_request {table : Table} (h : nextAct s = .request table) :
    boundaryStep s = requestReconfig table (takeAct s) := by
  simp [boundaryStep, hpending, h]

theorem boundaryStep_of_serial {r : Option Byte} (h : nextAct s = .serial r) :
    boundaryStep s = .next (hear r (takeAct s)) := by
  simp [boundaryStep, hpending, h]

theorem boundaryStep_of_poll {i : PollInput} (h : nextAct s = .poll i) :
    boundaryStep s = pollTurn i.now (loadPorts i (takeAct s)) := by
  simp [boundaryStep, hpending, h]

end Acts

/-- In a USB build one turn of the loop is the operation `POLL` (46_pipeline.md R261, R262). -/
theorem pollTurn_of_usb {now : Nat} {s : State} (h : s.cfg.mode ≠ .jvs) :
    pollTurn now s = exec (.poll now) s := by
  unfold pollTurn
  split
  · rfl
  · rfl
  · exact absurd ‹_› h

theorem pollTurn_of_jvs {now : Nat} {s : State} (h : s.cfg.mode = .jvs) :
    pollTurn now s = .next (pollStart now s) := by
  simp [pollTurn, h]

/-- Settles O17: the step at the boundary is `boundaryStep`, which the flag and then the next act
decide. -/
theorem stepAtTheBoundary : Obligations.StepAtTheBoundary := by
  intro s hwf hphase
  rw [step_of_boundary hwf hphase]
  refine ⟨fun a rest h => ?written, fun h => ?free, boundaryStep_of_pending, fun hpending =>
    ⟨fun player button pressed hact => ?setSwitch, fun slot hact => ?incCoin,
      fun table hact htable => ?request, fun r hact => ?serial, fun i hact hmode => ?usb,
      fun i hact hmode => ?jvs⟩⟩
  case written => simp [nextAct, h]
  case free => simp [nextAct, h]
  case setSwitch => exact boundaryStep_of_setSwitch hpending hact
  case incCoin => exact boundaryStep_of_incCoin hpending hact
  case request =>
    rw [boundaryStep_of_request hpending hact]
    exact Memory.requestReconfig_of_accepted (s := takeAct s) htable (by simp [hpending])
  case serial => exact boundaryStep_of_serial hpending hact
  case usb =>
    rw [boundaryStep_of_poll hpending hact]
    exact pollTurn_of_usb (s := loadPorts i (takeAct s)) hmode
  case jvs =>
    rw [boundaryStep_of_poll hpending hact]
    exact pollTurn_of_jvs (s := loadPorts i (takeAct s)) hmode

/-! ## One wire symbol of the receive loop -/

theorem step_of_symbol {s : State} {b : Byte} {more : List (Option Byte)} (hwf : s.cfg.wf = true)
    (hphase : s.phase = .receive) (hserial : s.ports.serial = some b :: more) :
    step s = symbolStep b s := by
  simp [step, receiveStep, hwf, hphase, hserial]

theorem step_of_wireSymbol {s t : State} {i : Instr} {b : Byte} {used : Nat}
    {more : List (Option Byte)} (hwf : s.cfg.wf = true) (hphase : s.phase = .receive)
    (hserial : s.ports.serial = some b :: more)
    (hsymbol : wireSymbol s.cfg s.rx.escape b s.ports.serial[1]?.join = (i, used))
    (hexec : exec i (s.withSerial (s.ports.serial.drop used)) = .next t) :
    step s = .next (afterSymbol t) := by
  rw [step_of_symbol hwf hphase hserial, symbolStep, hsymbol, hexec, andThen_next]

theorem wireSymbol_sync (c : Config) (armed : Bool) (after : Option Byte) :
    wireSymbol c armed c.jvsSync after = (.sync, 1) := by
  simp [wireSymbol, decodeWire]

/-- An `ESCAPE` with an ordinary byte directly after it is a pair (30_encoding.md R84; log 14). -/
theorem wireSymbol_pair {c : Config} {w : Byte} (hwf : c.wf = true) (hw : w ≠ c.jvsSync) :
    wireSymbol c false c.jvsEscape (some w) = (.escape w, 2) := by
  simp [wireSymbol, decodeWire, Encoding.jvsEscape_ne_jvsSync hwf, hw]

/-- An `ESCAPE` with no ordinary byte directly after it is received on its own (log 14). -/
theorem wireSymbol_loneEscape {c : Config} {after : Option Byte} (hwf : c.wf = true)
    (h : after = none ∨ after = some c.jvsSync) :
    wireSymbol c false c.jvsEscape after = (.jvsRxByte c.jvsEscape, 1) := by
  rcases h with rfl | rfl <;> simp [wireSymbol, decodeWire, Encoding.jvsEscape_ne_jvsSync hwf]

theorem wireSymbol_armed {c : Config} {b : Byte} (after : Option Byte) (hb : b ≠ c.jvsSync) :
    wireSymbol c true b after = (.jvsRxByte b, 1) := by
  simp [wireSymbol, hb]

theorem wireSymbol_ordinary {c : Config} {b : Byte} (armed : Bool) (after : Option Byte)
    (hsync : b ≠ c.jvsSync) (hescape : b ≠ c.jvsEscape) :
    wireSymbol c armed b after = (.jvsRxByte b, 1) := by
  cases armed <;> simp [wireSymbol, decodeWire, hsync, hescape]

theorem afterSymbol_of_complete {t : State} (h : t.ret = .rx true) :
    afterSymbol t = startDispatch t := by
  simp [afterSymbol, frameComplete, h]

theorem afterSymbol_of_incomplete {t : State} (h : t.ret ≠ .rx true) : afterSymbol t = t := by
  simp [afterSymbol, frameComplete, h]

/-- Settles O12: each alternative is a reading of `wireSymbol`, and `afterSymbol` dispatches what
the symbol completed, by the addressing test. -/
theorem stepRunsTheReceivedSymbol : Obligations.StepRunsTheReceivedSymbol := by
  intro s i b used more hwf hphase hserial halternative t addressed hexec haddressed
  obtain ⟨_, _, hsync, hescape, _⟩ := wf_fixed hwf
  rw [← Commands.isAddressed_iff] at haddressed
  have hafter : s.ports.serial[1]? = more[0]? := by rw [hserial]; rfl
  have hsymbol : wireSymbol s.cfg s.rx.escape b s.ports.serial[1]?.join = (i, used) := by
    rw [hafter]
    rw [← hsync, ← hescape] at halternative
    rcases halternative with ⟨rfl, rfl, rfl⟩ | ⟨w, tl, harmed, rfl, rfl, hw, rfl, rfl⟩
      | ⟨harmed, rfl, hmore, rfl, rfl⟩ | ⟨harmed, rfl, rfl, rfl⟩ | ⟨hs, he, rfl, rfl⟩
    · exact wireSymbol_sync _ _ _
    · rw [harmed]
      exact wireSymbol_pair hwf hw
    · rw [harmed]
      refine wireSymbol_loneEscape hwf ?_
      rcases hmore with rfl | ⟨tl, rfl | rfl⟩
      · exact .inl rfl
      · exact .inl rfl
      · exact .inr rfl
    · rw [harmed]
      exact wireSymbol_armed _ (Encoding.jvsEscape_ne_jvsSync hwf)
    · exact wireSymbol_ordinary _ _ hs he
  rw [step_of_wireSymbol hwf hphase hserial hsymbol hexec]
  refine ⟨fun h => by rw [afterSymbol_of_incomplete h], fun h hyes => ?walk, fun h hno => ?dropped⟩
  case walk => rw [afterSymbol_of_complete h, startDispatch, if_pos (haddressed.mp hyes)]
  case dropped =>
    rw [afterSymbol_of_complete h, startDispatch, if_neg (mt haddressed.mpr hno)]
    rfl

/-! ## Offering a report -/

/-- `sendIfChanged` is the rule of 46_pipeline.md R264. -/
theorem offeredAs_sendIfChanged (l : Last) (configured ok : Bool) (ch : Channel) (r : List Byte) :
    OfferedAs l configured ok ch r (sendIfChanged l configured ok ch r).1
      (sendIfChanged l configured ok ch r).2 := by
  rcases sendIfChanged_cases l configured ok ch r with
    ⟨hvalid, hbytes, e⟩ | ⟨hgate, e⟩ | ⟨hnew, hgate, hok, e⟩ | ⟨hnew, hgate, hok, e⟩ <;> rw [e]
  · exact ⟨fun _ => ⟨rfl, rfl⟩, fun h => absurd ⟨hvalid, hbytes⟩ h,
      fun h => absurd ⟨hvalid, hbytes⟩ h⟩
  · simp [OfferedAs, hgate]
  · simp [OfferedAs, hnew, hgate, hok]
  · simp [OfferedAs, hnew, hgate, hok]

/-- The report the register holds is not offered again, whatever the transport presents. -/
theorem sendIfChanged_same (r : List Byte) (configured ok : Bool) (ch : Channel) :
    sendIfChanged ⟨true, r⟩ configured ok ch r = (⟨true, r⟩, []) := by
  simp [sendIfChanged, Last.differs]

@[simp] theorem reportsOffered_append (es fs : List Event) :
    reportsOffered (es ++ fs) = reportsOffered es ++ reportsOffered fs :=
  List.filterMap_append

@[simp] theorem reportsOffered_scanReads (c : Config) (high : List Nat) :
    reportsOffered (scanReads c high) = [] := by
  simp [reportsOffered, scanReads]

section Offers

variable {l : Last} {configured ok answer : Bool} {ch ch' : Channel} {r r' : List Byte}

/-- An offer is made on its own channel. -/
theorem channel_of_offered
    (h : (ch', r', answer) ∈ reportsOffered (sendIfChanged l configured ok ch r).2) : ch' = ch := by
  rcases sendIfChanged_cases l configured ok ch r with
    ⟨_, _, e⟩ | ⟨_, e⟩ | ⟨_, _, _, e⟩ | ⟨_, _, _, e⟩ <;> rw [e] at h <;>
    simp_all [reportsOffered]

/-- A report the transport took is the last one handed over. -/
theorem last_of_taken
    (h : (ch', r', true) ∈ reportsOffered (sendIfChanged l configured ok ch r).2) :
    (sendIfChanged l configured ok ch r).1 = ⟨true, r⟩ := by
  rcases sendIfChanged_cases l configured ok ch r with
    ⟨_, _, e⟩ | ⟨_, e⟩ | ⟨_, _, _, e⟩ | ⟨_, _, _, e⟩ <;> rw [e] at h ⊢ <;>
    simp_all [reportsOffered]

/-- A report the transport took offers nothing when offered once more (46_pipeline.md R265). -/
theorem not_offered_again
    (h : (ch', r', true) ∈ reportsOffered (sendIfChanged l configured ok ch r).2)
    (configured' ok' : Bool) :
    (sendIfChanged (sendIfChanged l configured ok ch r).1 configured' ok' ch r).2 = [] := by
  rw [last_of_taken h, sendIfChanged_same]

end Offers

/-! ## A poll in `Joystick` mode -/

/-- The offer of player `p`'s report under what the transport presents. -/
def joyOffer (c : Config) (t : Transport) (p : Nat) (a : PlayerActions) (l : Last) :
    Last × List Event :=
  sendIfChanged l t.configured (joyOk t p) (.joy p) (joyReport c a p)

/-- What a `Joystick` poll records for two players' action sets and last-sent registers. -/
def joystickEvents (c : Config) (pt : Ports) (a1 a2 : PlayerActions) (l1 l2 : Last) : List Event :=
  scanReads c pt.high ++ (joyOffer c pt.transport 1 a1 l1).2 ++ (joyOffer c pt.transport 2 a2 l2).2

/-- The state a `Joystick` poll leaves for two players' action sets and last-sent registers. -/
def afterJoystickPoll (now : Nat) (s : State) (a1 a2 : PlayerActions) (l1 l2 : Last) : State :=
  { scanned now s with
    joyLast := [(joyOffer s.cfg s.ports.transport 1 a1 l1).1,
      (joyOffer s.cfg s.ports.transport 2 a2 l2).1]
    trace := (scanned now s).trace ++ (joyOffer s.cfg s.ports.transport 1 a1 l1).2
      ++ (joyOffer s.cfg s.ports.transport 2 a2 l2).2
    phase := .boundary
    ret := .unit }

theorem afterJoystickPoll_trace (now : Nat) (s : State) (a1 a2 : PlayerActions) (l1 l2 : Last) :
    (afterJoystickPoll now s a1 a2 l1 l2).trace
      = s.trace ++ joystickEvents s.cfg s.ports a1 a2 l1 l2 := by
  simp [afterJoystickPoll, joystickEvents, scanned]

/-- `Joystick` mode has two players (00_scope.md R6; log 21). -/
theorem nPlayers_of_joystick {c : Config} (hwf : c.wf = true) (hmode : c.mode = .joystick) :
    c.nPlayers = 2 := by
  simp only [Config.wf, Config.playersOk, hmode, Bool.and_eq_true] at hwf
  obtain ⟨⟨⟨⟨⟨⟨⟨⟨_, hplayers⟩, _⟩, _⟩, _⟩, _⟩, _⟩, _⟩, _⟩ := hwf
  simpa using hplayers

theorem exec_poll_joystick {s : State} {l1 l2 : Last} (now : Nat) (hmode : s.cfg.mode = .joystick)
    (hplayers : s.cfg.nPlayers = 2) (hlast : s.joyLast = [l1, l2]) :
    ∃ a1 a2, (currentActions (scanned now s)).players = [a1, a2]
      ∧ exec (.poll now) s = .next (afterJoystickPoll now s a1 a2 l1 l2) := by
  obtain ⟨a1, a2, hact⟩ := List.length_eq_two.mp
    ((Map.mapActions_players_length s.cfg s.map (stableVector (scanned now s))).trans hplayers)
  have hact' : (currentActions (scanned now s)).players = [a1, a2] := hact
  have hscanned : (scanned now s).joyLast = [l1, l2] := hlast
  have hpoll : exec (.poll now) s = .next (pollJoystick now s) := by
    simp [exec, execPoll, hmode]
  refine ⟨a1, a2, hact', hpoll.trans (congrArg _ ?_)⟩
  rw [pollJoystick, hact']
  simp only [List.zipIdx_cons, List.zipIdx_nil, List.foldl_cons, List.foldl_nil, offerJoy, hscanned,
    afterJoystickPoll]
  rfl

/-- Settles O28: the vector, the action set and the reports are those of the operations one by one,
and each offer is `sendIfChanged`, which is the rule of R264 (`offeredAs_sendIfChanged`). -/
theorem joystickPollIsScanMapEncode : Obligations.JoystickPollIsScanMapEncode := by
  intro now s hinv hmode
  obtain ⟨hwf, _, _, ⟨hlength, _⟩, _⟩ := hinv
  have hplayers := nPlayers_of_joystick hwf hmode
  obtain ⟨l1, l2, hlast⟩ := List.length_eq_two.mp (hlength.trans hplayers)
  obtain ⟨a1, a2, hact, hpoll⟩ := exec_poll_joystick now hmode hplayers hlast
  have hvector : (stableVector (scanned now s)).length = s.cfg.inputs.length := by
    simp [stableVector, scanned]
  refine ⟨(scanned now s).withRet (.vector (stableVector (scanned now s))), _, _,
    joyReport s.cfg a1 1, joyReport s.cfg a2 2, l1, l2, _, _, _, _, rfl, rfl,
    Map.execMap_of_length hvector, ?_, ?_, hlast, hpoll, offeredAs_sendIfChanged _ _ _ _ _,
    offeredAs_sendIfChanged _ _ _ _ _⟩
  · exact Joystick.execEncJoy_of_player (s := (scanned now s).withRet _) hmode le_rfl
      (hplayers.symm ▸ one_le_two) (congrArg (·[0]?) hact)
  · exact Joystick.execEncJoy_of_player (s := (scanned now s).withRet _) hmode one_le_two
      hplayers.ge (congrArg (·[1]?) hact)

/-! ## A poll in `Keyboard` mode -/

/-- The offer of the keyboard report under what the transport presents. -/
def kbdOffer (c : Config) (t : Transport) (act : ActionSet) (l : Last) : Last × List Event :=
  sendIfChanged l t.configured t.kbdOk .kbd (kbdReport c act)

/-- What a `Keyboard` poll records for an action set and a last-sent register. -/
def keyboardEvents (c : Config) (pt : Ports) (act : ActionSet) (l : Last) : List Event :=
  scanReads c pt.high ++ (kbdOffer c pt.transport act l).2

/-- The state a `Keyboard` poll leaves. -/
def afterKeyboardPoll (now : Nat) (s : State) : State :=
  { scanned now s with
    kbdLast := (kbdOffer s.cfg s.ports.transport (currentActions (scanned now s)) s.kbdLast).1
    trace := (scanned now s).trace
      ++ (kbdOffer s.cfg s.ports.transport (currentActions (scanned now s)) s.kbdLast).2
    phase := .boundary
    ret := .unit }

theorem afterKeyboardPoll_trace (now : Nat) (s : State) :
    (afterKeyboardPoll now s).trace
      = s.trace ++ keyboardEvents s.cfg s.ports (currentActions (scanned now s)) s.kbdLast := by
  simp [afterKeyboardPoll, keyboardEvents, scanned]

theorem exec_poll_keyboard {s : State} (now : Nat) (hmode : s.cfg.mode = .keyboard) :
    exec (.poll now) s = .next (afterKeyboardPoll now s) := by
  have hpoll : exec (.poll now) s = .next (pollKeyboard now s) := by
    simp [exec, execPoll, hmode]
  exact hpoll

/-- Settles O29: the vector, the action set and the report are those of the operations one by one,
and the offer is the rule of R264 (`offeredAs_sendIfChanged`). -/
theorem keyboardPollIsScanMapEncode : Obligations.KeyboardPollIsScanMapEncode := by
  intro now s _ hmode
  have hvector : (stableVector (scanned now s)).length = s.cfg.inputs.length := by
    simp [stableVector, scanned]
  exact ⟨(scanned now s).withRet (.vector (stableVector (scanned now s))), _, _, _, _, _, rfl, rfl,
    Map.execMap_of_length hvector,
    Keyboard.execEncKbd_of_mode (s := (scanned now s).withRet _) hmode,
    exec_poll_keyboard now hmode, offeredAs_sendIfChanged _ _ _ _ _⟩

/-! ## Two polls in a row -/

/-- No channel whose report the transport took in `first` is offered anything in `second`
(46_pipeline.md R265). -/
def OffersOnce (first second : List Event) : Prop :=
  ∀ ch r, (ch, r, true) ∈ reportsOffered first → ∀ r' ok, (ch, r', ok) ∉ reportsOffered second

theorem joystickEvents_offersOnce (c : Config) (pt pt' : Ports) (a1 a2 : PlayerActions)
    (l1 l2 : Last) :
    OffersOnce (joystickEvents c pt a1 a2 l1 l2) (joystickEvents c pt' a1 a2
      (joyOffer c pt.transport 1 a1 l1).1 (joyOffer c pt.transport 2 a2 l2).1) := by
  intro ch r htaken r' ok hagain
  simp only [joystickEvents, reportsOffered_append, reportsOffered_scanReads, List.nil_append,
    List.mem_append] at htaken hagain
  rcases htaken with htaken | htaken <;> rcases hagain with hagain | hagain
  · rw [joyOffer, joyOffer, not_offered_again htaken] at hagain
    cases hagain
  · cases (channel_of_offered htaken).symm.trans (channel_of_offered hagain)
  · cases (channel_of_offered htaken).symm.trans (channel_of_offered hagain)
  · rw [joyOffer, joyOffer, not_offered_again htaken] at hagain
    cases hagain

theorem keyboardEvents_offersOnce (c : Config) (pt pt' : Ports) (act : ActionSet) (l : Last) :
    OffersOnce (keyboardEvents c pt act l)
      (keyboardEvents c pt' act (kbdOffer c pt.transport act l).1) := by
  intro ch r htaken r' ok hagain
  simp only [keyboardEvents, reportsOffered_append, reportsOffered_scanReads, List.nil_append]
    at htaken hagain
  rw [kbdOffer, kbdOffer, not_offered_again htaken] at hagain
  cases hagain

/-- Settles O30: in either mode a poll records offers of the reports of its action set
(`exec_poll_joystick`, `exec_poll_keyboard`), and the same reports offered to the registers the
first poll left are not offered again. -/
theorem identicalActionSetsSendOnce : Obligations.IdenticalActionSetsSendOnce := by
  intro now1 now2 s pt hinv husb
  cases hmode : s.cfg.mode with
  | joystick =>
    obtain ⟨hwf, _, _, ⟨hlength, _⟩, _⟩ := hinv
    have hplayers := nPlayers_of_joystick hwf hmode
    obtain ⟨l1, l2, hlast⟩ := List.length_eq_two.mp (hlength.trans hplayers)
    obtain ⟨a1, a2, hact, hpoll⟩ := exec_poll_joystick now1 hmode hplayers hlast
    obtain ⟨b1, b2, hact', hpoll'⟩ := exec_poll_joystick
      (s := { afterJoystickPoll now1 s a1 a2 l1 l2 with ports := pt }) now2 hmode hplayers rfl
    refine ⟨_, _, _, _, hpoll, afterJoystickPoll_trace _ _ _ _ _ _, hpoll',
      afterJoystickPoll_trace _ _ _ _ _ _, fun hsame => ?_⟩
    have hplayers' : [a1, a2] = [b1, b2] :=
      hact.symm.trans ((congrArg ActionSet.players hsame).trans hact')
    obtain ⟨rfl, rfl⟩ : a1 = b1 ∧ a2 = b2 := by simpa using hplayers'
    exact joystickEvents_offersOnce s.cfg s.ports pt a1 a2 l1 l2
  | keyboard =>
    refine ⟨_, _, _, _, exec_poll_keyboard now1 hmode, afterKeyboardPoll_trace now1 s,
      exec_poll_keyboard (s := { afterKeyboardPoll now1 s with ports := pt }) now2 hmode,
      afterKeyboardPoll_trace now2 _, fun hsame => ?_⟩
    have hsame' : currentActions (scanned now2 { afterKeyboardPoll now1 s with ports := pt })
        = currentActions (scanned now1 s) := hsame.symm
    rw [hsame']
    exact keyboardEvents_offersOnce s.cfg s.ports pt _ s.kbdLast
  | jvs => exact absurd hmode husb

/-! ## The switches of a `Jvs` iteration -/

/-- The level of a bit of `SW`: row `p`, byte `y`; there is none outside `SW`. -/
def swLevel (sw : List (List Byte)) (p y bit : Nat) : Option Bool :=
  (sw[p]?.bind fun row => row[y]?).map fun b => b.getLsbD bit

/-- The function of an input has the switch that lives at a bit of `SW` (46_pipeline.md R266,
30_encoding.md R95). -/
def Drives (c : Config) (t : Table) (inp : Input) (p y bit : Nat) : Prop :=
  ∃ button, switchOf c (tableEntry t inp.player inp.slot) = some button
    ∧ inp.player = p + 1 ∧ button / 8 = y ∧ switchBit c button = bit

/-- A byte and a bit in it are one switch. -/
theorem eq_of_switchBit_eq {c : Config} {a b : Nat} (hbyte : a / 8 = b / 8)
    (hbit : switchBit c a = switchBit c b) : a = b := by
  unfold switchBit at hbit
  split at hbit <;> omega

section Glue

variable {c : Config} {t : Table} {s : State} {p y bit : Nat} {old : Bool}

/-- One bit of `SW` after `SET_SWITCH` inside `SW`. -/
theorem switchesWith_level {sw : List (List Byte)} {player button : Nat} (pressed : Bool)
    (hin : 1 ≤ player ∧ player ≤ c.jvsPlayers ∧ button < 8 * c.switchBytes) (hbit : bit < 8)
    (hold : swLevel sw p y bit = some old) :
    swLevel (switchesWith c player button pressed sw) p y bit
      = some (if p + 1 = player ∧ y = button / 8 ∧ bit = switchBit c button then pressed
          else old) := by
  obtain ⟨b, hbyte, rfl⟩ := Option.map_eq_some_iff.mp hold
  rw [swLevel, Commands.switchesWith_byte hin hbyte, Option.map_some]
  by_cases h : p + 1 = player ∧ y = button / 8
  · simp [h, Commands.getLsbD_setBitTo b pressed hbit]
  · rw [if_neg h, if_neg fun ⟨hp, hy, _⟩ => h ⟨hp, hy⟩]

theorem lt_of_swLevel (hs : s.inputsOk) (hold : swLevel s.sw p y bit = some old) :
    p < s.cfg.jvsPlayers ∧ y < s.cfg.switchBytes := by
  obtain ⟨hplayers, hrows, _⟩ := hs
  obtain ⟨b, hbyte, _⟩ := Option.map_eq_some_iff.mp hold
  obtain ⟨row, hrow, hget⟩ := Option.bind_eq_some_iff.mp hbyte
  obtain ⟨hp, rfl⟩ := List.getElem?_eq_some_iff.mp hrow
  obtain ⟨hy, _⟩ := List.getElem?_eq_some_iff.mp hget
  exact ⟨hplayers ▸ hp, hrows _ (List.getElem_mem hp) ▸ hy⟩

theorem exists_swLevel (hs : s.inputsOk) (hp : p < s.cfg.jvsPlayers)
    (hy : y < s.cfg.switchBytes) : ∃ old, swLevel s.sw p y bit = some old := by
  obtain ⟨row, hrow, hget⟩ := Commands.switchByte_of_held hs hp hy
  exact ⟨_, by rw [swLevel, hrow, Option.bind_some, hget, Option.map_some]⟩

theorem glueInput_cfg (s : State) (e : Input × Bool) : (glueInput s e).cfg = s.cfg := by
  unfold glueInput
  split <;> rfl

theorem glueInput_map (s : State) (e : Input × Bool) : (glueInput s e).map = s.map := by
  unfold glueInput
  split <;> rfl

theorem glueInput_of_some {e : Input × Bool} {button : Nat}
    (h : switchOf s.cfg (tableEntry s.map e.1.player e.1.slot) = some button) :
    glueInput s e = switchSet e.1.player button e.2 s := by
  simp [glueInput, h]

theorem glueInput_of_none {e : Input × Bool}
    (h : switchOf s.cfg (tableEntry s.map e.1.player e.1.slot) = none) : glueInput s e = s := by
  simp [glueInput, h]

theorem glueInput_level_of_not_drives {e : Input × Bool}
    (hd : ¬ Drives s.cfg s.map e.1 p y bit) (hbit : bit < 8)
    (hold : swLevel s.sw p y bit = some old) :
    swLevel (glueInput s e).sw p y bit = some old := by
  cases hswitch : switchOf s.cfg (tableEntry s.map e.1.player e.1.slot) with
  | none => rwa [glueInput_of_none hswitch]
  | some button =>
    rw [glueInput_of_some hswitch, switchSet]
    by_cases hin : 1 ≤ e.1.player ∧ e.1.player ≤ s.cfg.jvsPlayers ∧ button < 8 * s.cfg.switchBytes
    · rw [switchesWith_level e.2 hin hbit hold,
        if_neg fun ⟨hp, hy, hb⟩ => hd ⟨button, hswitch, hp.symm, hy.symm, hb.symm⟩]
    · rwa [Commands.switchesWith_of_outside hin]

theorem glueInput_level_of_drives {e : Input × Bool} (hs : s.inputsOk)
    (hd : Drives s.cfg s.map e.1 p y bit) (hbit : bit < 8)
    (hold : swLevel s.sw p y bit = some old) :
    swLevel (glueInput s e).sw p y bit = some e.2 := by
  obtain ⟨button, hswitch, hplayer, hbyte, hposition⟩ := hd
  obtain ⟨hp, hy⟩ := lt_of_swLevel hs hold
  rw [glueInput_of_some hswitch, switchSet, switchesWith_level e.2 (by omega) hbit hold,
    if_pos ⟨hplayer.symm, hbyte.symm, hposition.symm⟩]

/-- A bit that no input of the list drives stays. -/
theorem foldl_glueInput_of_not_drives {l : List (Input × Bool)} (hcfg : s.cfg = c)
    (hmap : s.map = t) (hd : ∀ e ∈ l, ¬ Drives c t e.1 p y bit) (hbit : bit < 8)
    (hold : swLevel s.sw p y bit = some old) :
    swLevel (l.foldl glueInput s).sw p y bit = some old := by
  induction l generalizing s with
  | nil => exact hold
  | cons e l ih =>
    obtain ⟨hd₁, hds⟩ := List.forall_mem_cons.mp hd
    exact ih ((glueInput_cfg s e).trans hcfg) ((glueInput_map s e).trans hmap) hds
      (glueInput_level_of_not_drives (by rwa [hcfg, hmap]) hbit hold)

/-- The last input of the list that drives a bit sets it (46_pipeline.md R266). -/
theorem foldl_glueInput_of_last {l : List (Input × Bool)} {i : Nat} {e : Input × Bool}
    (hs : s.Inv) (hcfg : s.cfg = c) (hmap : s.map = t) (hp : p < c.jvsPlayers)
    (hy : y < c.switchBytes) (hbit : bit < 8) (hi : l[i]? = some e)
    (hd : Drives c t e.1 p y bit)
    (hlater : ∀ j e', i < j → l[j]? = some e' → ¬ Drives c t e'.1 p y bit) :
    swLevel (l.foldl glueInput s).sw p y bit = some e.2 := by
  induction l generalizing s i with
  | nil => simp at hi
  | cons e₀ l ih =>
    have hcfg' := (glueInput_cfg s e₀).trans hcfg
    have hmap' := (glueInput_map s e₀).trans hmap
    cases i with
    | zero =>
      obtain rfl : e₀ = e := by simpa using hi
      obtain ⟨_, _, _, _, _, _, _, hinputs, _⟩ := hs
      obtain ⟨old, hold⟩ := exists_swLevel (bit := bit) hinputs (hcfg ▸ hp) (hcfg ▸ hy)
      rw [List.foldl_cons]
      refine foldl_glueInput_of_not_drives hcfg' hmap' (fun e' he' => ?_) hbit
        (glueInput_level_of_drives hinputs (by rwa [hcfg, hmap]) hbit hold)
      obtain ⟨j, hj⟩ := List.mem_iff_getElem?.mp he'
      exact hlater (j + 1) e' (Nat.succ_pos j) hj
    | succ i =>
      exact ih (Invariant.inv_glueInput e₀ hs) hcfg' hmap' hi fun j e' hj =>
        hlater (j + 1) e' (Nat.succ_lt_succ hj)

end Glue

/-- The inputs with their stable levels after the scan of a `Jvs` iteration. -/
def stableInputs (now : Nat) (s : State) : List (Input × Bool) :=
  s.cfg.inputs.zip (stableVector (scanned now s))

theorem pollStart_sw (now : Nat) (s : State) :
    (pollStart now s).sw = ((stableInputs now s).foldl glueInput (scanned now s)).sw := rfl

theorem switchBit_lt (c : Config) (button : Nat) : switchBit c button < 8 := by
  unfold switchBit
  split <;> omega

/-- Settles O53: besides the scan an iteration starts by writing `SW` alone (`pollStart_eq`), where
a bit has the level of the last input that drives it (`foldl_glueInput_of_last`), or stays
(`foldl_glueInput_of_not_drives`). -/
theorem jvsIterationStartsWithTheSwitches : Obligations.JvsIterationStartsWithTheSwitches := by
  intro now s position hinv hmode hposition
  obtain rfl : position = switchBit s.cfg := funext hposition
  have hstart : (pollStart now s).Inv := Invariant.inv_pollStart now hmode hinv
  have ⟨_, _, _, _, _, _, _, hinputs, _⟩ := hstart
  obtain ⟨sw, hpoll⟩ := pollStart_eq now s
  have hcfg : (pollStart now s).cfg = s.cfg := by rw [hpoll]
  refine ⟨_, _, execScan_eq now s, rfl, ?frame,
    fun i button inp d row b hi hswitch hlater hd hrow hb => ?driven,
    fun p y bit old new hbit hold hnew hnone => ?kept, hinputs⟩
  case frame => rw [hpoll]
  case driven =>
    have ⟨hwf, _⟩ := hinv
    obtain ⟨hpos, _⟩ := Map.wf_input_inside hwf (List.mem_of_getElem? hi)
    have hplayer : inp.player = inp.player - 1 + 1 := by omega
    have hlevel : swLevel (pollStart now s).sw (inp.player - 1) (button / 8)
        (switchBit s.cfg button) = some (b.getLsbD (switchBit s.cfg button)) := by
      rw [swLevel, hrow, Option.bind_some, hb, Option.map_some]
    obtain ⟨hp, hy⟩ := lt_of_swLevel hinputs hlevel
    have hentry : (stableInputs now s)[i]? = some (inp, d.stable) :=
      List.getElem?_zip_eq_some.mpr
        ⟨hi, List.getElem?_map.trans (congrArg (Option.map Debounce.stable) hd)⟩
    have hdriven : swLevel (pollStart now s).sw (inp.player - 1) (button / 8)
        (switchBit s.cfg button) = some d.stable := by
      rw [pollStart_sw]
      refine foldl_glueInput_of_last (c := s.cfg) (t := s.map) (Invariant.inv_scanned now hinv) rfl
        rfl (hcfg ▸ hp) (hcfg ▸ hy) (switchBit_lt _ _) hentry
        ⟨button, hswitch, hplayer, rfl, rfl⟩ ?_
      rintro j e' hj he' ⟨button', hswitch', hplayer', hbyte', hbit'⟩
      obtain rfl := eq_of_switchBit_eq hbyte' hbit'
      obtain ⟨hinput, _⟩ := List.getElem?_zip_eq_some.mp he'
      exact hlater j e'.1 hj hinput ⟨hplayer'.trans hplayer.symm, hswitch'⟩
    exact Option.some.inj (hlevel.symm.trans hdriven)
  case kept =>
    have hlevel : swLevel s.sw p y bit = some (old.getLsbD bit) := by
      rw [swLevel, hold, Option.map_some]
    have hlevel' : swLevel (pollStart now s).sw p y bit = some (new.getLsbD bit) := by
      rw [swLevel, hnew, Option.map_some]
    have hstays : swLevel (pollStart now s).sw p y bit = some (old.getLsbD bit) := by
      rw [pollStart_sw]
      refine foldl_glueInput_of_not_drives (c := s.cfg) (t := s.map) (s := scanned now s)
        (l := stableInputs now s) rfl rfl (fun e he => ?_) hbit hlevel
      rintro ⟨button, hswitch, hdrives⟩
      exact hnone e.1 (List.of_mem_zip he).1 button hswitch hdrives
    exact Option.some.inj (hlevel'.symm.trans hstays)

/-! ## The receive loop on one byte -/

@[simp] theorem receiveByte_ports (w : Byte) (s : State) : (receiveByte w s).ports = s.ports := by
  rw [receiveByte_eq]

theorem frameComplete_receiveByte (w : Byte) (s : State) :
    frameComplete (receiveByte w s) = decide ((rxByte s.cfg w s.rx).2 = .complete) := by
  rw [receiveByte_eq, frameComplete]
  cases decide ((rxByte s.cfg w s.rx).2 = .complete) <;> rfl

theorem receiveByte_ret (w : Byte) (s : State) :
    (receiveByte w s).ret = .rx (frameComplete (receiveByte w s)) := by
  rw [frameComplete_receiveByte, receiveByte_eq]

/-- Reception does not look at what the line presents next. -/
theorem receiveByte_withSerial (w : Byte) (s : State) (l : List (Option Byte)) :
    (receiveByte w s).withSerial l = receiveByte w (s.withSerial l) := by
  rw [receiveByte_eq, receiveByte_eq]
  rfl

theorem receiveLoop_cons {s : State} (b : Byte) (rest : List (Option Byte))
    (hmode : s.cfg.mode = .jvs) :
    receiveLoop (some b :: rest) s
      = if frameComplete (receiveByte b (s.withSerial rest)) then
          exec .jvsDispatch (receiveByte b (s.withSerial rest))
        else receiveLoop rest (receiveByte b (s.withSerial rest)) := by
  have hbyte : execJvsRxByte b (s.withSerial rest) = .next (receiveByte b (s.withSerial rest)) :=
    onlyIn_of_mode hmode
  rw [receiveLoop, hbyte, andThen_next]
  rfl

/-- Where no escape is armed an `ESCAPE` completes no frame: it arms the transform, or is
discarded. -/
theorem rxByte_escape_ne_complete {c : Config} {r : Rx} (hwf : c.wf = true)
    (he : r.escape = false) : (rxByte c c.jvsEscape r).2 ≠ .complete := by
  have hne := Encoding.jvsEscape_ne_jvsSync hwf
  by_cases hstate : r.state = .waitSync
  · rw [rxByte_waitSync hne hstate]
    nofun
  · rw [rxByte_escape hne hstate he]
    nofun

theorem receiveLoop_escape {s : State} (rest : List (Option Byte)) (hwf : s.cfg.wf = true)
    (hmode : s.cfg.mode = .jvs) (he : s.rx.escape = false) :
    receiveLoop (some s.cfg.jvsEscape :: rest) s
      = receiveLoop rest (receiveByte s.cfg.jvsEscape (s.withSerial rest)) := by
  rw [receiveLoop_cons _ _ hmode, frameComplete_receiveByte, if_neg]
  rw [decide_eq_true_iff]
  exact rxByte_escape_ne_complete hwf he

/-- An `ESCAPE` pair is the reception of its two bytes (log 14). -/
theorem exec_escape_of_unarmed {w : Byte} {s : State} (hwf : s.cfg.wf = true)
    (hmode : s.cfg.mode = .jvs) (he : s.rx.escape = false) :
    exec (.escape w) s = .next (receiveByte w (receiveByte s.cfg.jvsEscape s)) := by
  have hfirst : frameComplete (receiveByte s.cfg.jvsEscape s) = false := by
    rw [frameComplete_receiveByte]
    exact decide_eq_false (rxByte_escape_ne_complete hwf he)
  refine (onlyIn_of_mode hmode).trans (congrArg _ ?_)
  rw [hfirst, Bool.false_or, ← receiveByte_ret]
  rfl

/-! ## Runs of steps -/

theorem run_succ_of_step {M : Host.Core} {s u : M.State} (n : Nat) (h : M.step s = .next u) :
    M.run (n + 1) s = M.run n u := by
  rw [Host.Core.run, h]

/-- Some number of steps leads from `s` to `t`. -/
def Reaches (s t : State) : Prop := ∃ n, runsTo n s t

theorem Reaches.refl (s : State) : Reaches s s := ⟨0, rfl⟩

theorem Reaches.step {s u t : State} (h : Machine.step s = .next u) (hu : Reaches u t) :
    Reaches s t := by
  obtain ⟨n, hn⟩ := hu
  exact ⟨n + 1, (run_succ_of_step (M := Sys2Proof.core) n h).trans hn⟩

theorem Reaches.of_step {s t : State} (h : Machine.step s = .next t) : Reaches s t :=
  .step h (.refl t)

/-! ## The walk by steps -/

theorem cmdPtr_of_walk {cmd : Command} {s t : State} (h : CommandOutcome cmd s t)
    (hphase : t.phase = .walk) :
    t.cmdPtr = s.cmdPtr + (encodeCommand s.cfg cmd).length := by
  cases h with
  | answered body _ _ => rfl
  | unsupported op _ => cases hphase
  | resent _ => cases hphase

/-- The walk's steps, each command and the answer, are the whole walk. -/
theorem reaches_of_walkFrame {n : Nat} {s t : State} (hwf : s.cfg.wf = true)
    (hmode : s.cfg.mode = .jvs) (hwalk : s.phase = .walk) (hn : s.rx.count ≤ s.cmdPtr + n)
    (h : walkFrame n s = .next t) : Reaches s t := by
  induction n generalizing s with
  | zero =>
    rw [walkFrame_end hwalk hn] at h
    exact .of_step ((Commands.stepEndsTheWalk s hwf hwalk hn).trans h)
  | succ n ih =>
    by_cases hptr : s.cmdPtr < s.rx.count
    · obtain ⟨u, hu⟩ := execCommand_next (commandAt s) hmode
      have hstep : step s = .next u :=
        (Commands.step_of_command hwf hwalk hptr).trans ((exec_toInstr _ s).trans hu)
      have hout := execCommand_outcome hu
      have hkept := hout.kept
      rw [walkFrame_command hwalk hptr, hu, andThen_next] at h
      refine .step hstep ?_
      by_cases hwalk' : u.phase = .walk
      · have hpos := encodeCommand_length_pos s.cfg (commandAt s)
        have hmove := cmdPtr_of_walk hout hwalk'
        refine ih (hkept.cfg ▸ hwf) (hkept.cfg ▸ hmode) hwalk' ?_ h
        rw [hkept.rx]
        omega
      · rw [walkFrame_done hwalk'] at h
        exact Host.Outcome.next.inj h ▸ .refl u
    · have hend := Nat.le_of_not_lt hptr
      rw [walkFrame_end hwalk hend] at h
      exact .of_step ((Commands.stepEndsTheWalk s hwf hwalk hend).trans h)

/-- A dispatch is its start and the steps of its walk. -/
theorem reaches_of_dispatch {s t : State} (hwf : s.cfg.wf = true) (hmode : s.cfg.mode = .jvs)
    (h : exec .jvsDispatch s = .next t) : Reaches (startDispatch s) t := by
  have hkept := startDispatch_kept s
  rw [Commands.exec_jvsDispatch hmode] at h
  rcases startDispatch_cases s with ⟨_, e⟩ | ⟨_, e⟩
  · refine reaches_of_walkFrame (hkept.cfg ▸ hwf) (hkept.cfg ▸ hmode) ?_ ?_ h
    · rw [e]
    · rw [e]
      exact Nat.le_add_left _ _
  · rw [walkFrame_done (by rw [e]; nofun)] at h
    exact Host.Outcome.next.inj h ▸ .refl _

/-! ## The receive loop by steps -/

/-- A wire symbol whose last byte is `w`: if it completes a frame, the step has started the dispatch
that the loop runs, and if not, both go on. -/
theorem reaches_of_lastByte {s r t : State} {w : Byte} {rest : List (Option Byte)}
    (hwf : r.cfg.wf = true) (hmode : r.cfg.mode = .jvs)
    (hstep : step s = .next (afterSymbol (receiveByte w (r.withSerial rest))))
    (h : receiveLoop (some w :: rest) r = .next t)
    (hrest : receiveLoop rest (receiveByte w (r.withSerial rest)) = .next t →
      Reaches (receiveByte w (r.withSerial rest)) t) : Reaches s t := by
  have hkept := receiveByte_kept w (r.withSerial rest)
  refine .step hstep ?_
  rw [receiveLoop_cons w rest hmode] at h
  rw [afterSymbol]
  split at h
  · rename_i hcomplete
    rw [if_pos hcomplete]
    exact reaches_of_dispatch (hkept.cfg ▸ hwf) (hkept.cfg ▸ hmode) h
  · rename_i hcomplete
    rw [if_neg hcomplete]
    exact hrest h

theorem eq_cons_of_join_eq_some {l : List (Option Byte)} {w : Byte} (h : l[0]?.join = some w) :
    ∃ tl, l = some w :: tl := by
  cases l with
  | nil => cases h
  | cons r tl => exact ⟨tl, congrArg (· :: tl) h⟩

/-- The step on a byte of the line is its reception, or where a pair is presented the reception of
both bytes. -/
theorem step_symbol_cases {s : State} {b : Byte} {rest : List (Option Byte)}
    (hwf : s.cfg.wf = true) (hmode : s.cfg.mode = .jvs) (hphase : s.phase = .receive)
    (hserial : s.ports.serial = some b :: rest) :
    step s = .next (afterSymbol (receiveByte b (s.withSerial rest)))
    ∨ ∃ w tl, rest = some w :: tl ∧ b = s.cfg.jvsEscape ∧ s.rx.escape = false
      ∧ step s = .next (afterSymbol (receiveByte w (receiveByte b (s.withSerial tl)))) := by
  have hdrop : s.ports.serial.drop 1 = rest := by rw [hserial]; rfl
  rcases wireSymbol_cases s.cfg s.rx.escape b s.ports.serial[1]?.join with
    ⟨rfl, hsymbol⟩ | ⟨w, harmed, rfl, _, hnext, _, hsymbol⟩ | ⟨_, hsymbol⟩
  · exact .inl (step_of_wireSymbol hwf hphase hserial hsymbol (hdrop ▸ onlyIn_of_mode hmode))
  · obtain ⟨tl, rfl⟩ := eq_cons_of_join_eq_some (l := rest) (by rwa [hserial] at hnext)
    have hdrop' : s.ports.serial.drop 2 = tl := by rw [hserial]; rfl
    exact .inr ⟨w, tl, rfl, rfl, harmed, step_of_wireSymbol hwf hphase hserial hsymbol
      (hdrop' ▸ exec_escape_of_unarmed (s := s.withSerial _) hwf hmode harmed)⟩
  · exact .inl (step_of_wireSymbol hwf hphase hserial hsymbol (hdrop ▸ onlyIn_of_mode hmode))

/-- The steps of the receive loop, one for each wire symbol, do what the loop does byte by byte; by
induction on the number of results presented, of which a symbol takes one or two. -/
theorem reaches_of_receiveLoop {s t : State} (hwf : s.cfg.wf = true)
    (hmode : s.cfg.mode = .jvs) (hphase : s.phase = .receive)
    (h : receiveLoop s.ports.serial s = .next t) : Reaches s t := by
  induction hlen : s.ports.serial.length using Nat.strong_induction_on generalizing s with
  | _ n ih =>
    have hrest : ∀ (w : Byte) (r : State) (tl : List (Option Byte)), r.cfg = s.cfg →
        r.phase = .receive → tl.length < n →
        receiveLoop tl (receiveByte w (r.withSerial tl)) = .next t →
        Reaches (receiveByte w (r.withSerial tl)) t := by
      intro w r tl hcfg hreceive hshort hloop
      have hcfg' := (receiveByte_kept w (r.withSerial tl)).cfg.trans hcfg
      refine ih _ ?_ (hcfg' ▸ hwf) (hcfg' ▸ hmode) ?_ ?_ rfl
      · rwa [receiveByte_ports]
      · rwa [Invariant.receiveByte_phase]
      · rwa [receiveByte_ports]
    match hserial : s.ports.serial with
    | [] =>
      rw [hserial] at h
      have hself : s.withSerial [] = s := by rw [← hserial]; rfl
      exact Host.Outcome.next.inj h ▸ hself.symm ▸ .refl s
    | none :: rest =>
      rw [hserial] at h
      exact .of_step ((Framing.timeoutEndsTheIterationOnly s rest hwf hphase hserial).trans h)
    | some b :: rest =>
      rw [hserial] at h hlen
      rcases step_symbol_cases hwf hmode hphase hserial with
        hstep | ⟨w, tl, rfl, rfl, harmed, hstep⟩
      · exact reaches_of_lastByte hwf hmode hstep h (hrest b s rest rfl hphase (by simp [← hlen]))
      · have hkept := receiveByte_kept s.cfg.jvsEscape (s.withSerial (some w :: tl))
        have hserial' : receiveByte s.cfg.jvsEscape (s.withSerial tl)
            = (receiveByte s.cfg.jvsEscape (s.withSerial (some w :: tl))).withSerial tl :=
          (receiveByte_withSerial _ (s.withSerial (some w :: tl)) tl).symm
        rw [receiveLoop_escape _ hwf hmode harmed] at h
        rw [hserial'] at hstep
        refine reaches_of_lastByte (by rwa [hkept.cfg]) (by rwa [hkept.cfg]) hstep h
          (hrest w _ tl hkept.cfg ?_ (by simp [← hlen]))
        rw [Invariant.receiveByte_phase]
        exact hphase

theorem exec_poll_jvs {s : State} (now : Nat) (hmode : s.cfg.mode = .jvs) :
    exec (.poll now) s = receiveLoop s.ports.serial (pollStart now s) := by
  simp [exec, execPoll, hmode]

/-! ## What a poll in `Jvs` mode records -/

@[simp] theorem framesSent_checksumError (p : Prop) [Decidable p] :
    framesSent (if p then [.condition .checksumError] else []) = [] := by
  split <;> rfl

@[simp] theorem reportsOffered_checksumError (p : Prop) [Decidable p] :
    reportsOffered (if p then [.condition .checksumError] else []) = [] := by
  split <;> rfl

/-- The block has started a `Jvs` iteration from `s` and received `bytes` in it: it is still
receiving in `u`, with `es` recorded since and nothing sent. -/
structure Heard (s : State) (bytes : List Byte) (es : List Event) (u : State) : Prop where
  cfg : u.cfg = s.cfg
  phase : u.phase = .receive
  rx : u.rx = receiveAll s.cfg bytes s.rx
  lastTx : u.lastTx = s.lastTx
  trace : u.trace = s.trace ++ es
  frames : framesSent es = []
  reports : reportsOffered es = []

theorem heard_pollStart (now : Nat) (s : State) :
    Heard s [] (scanReads s.cfg s.ports.high) (pollStart now s) := by
  obtain ⟨sw, e⟩ := pollStart_eq now s
  rw [e]
  exact ⟨rfl, rfl, rfl, rfl, rfl, framesSent_scanReads _ _, reportsOffered_scanReads _ _⟩

theorem Heard.concat {s u : State} {bytes : List Byte} {es : List Event} (b : Byte)
    (rest : List (Option Byte)) (h : Heard s bytes es u) :
    ∃ es', Heard s (bytes ++ [b]) es' (receiveByte b (u.withSerial rest)) := by
  refine ⟨es ++ if (rxByte u.cfg b u.rx).2 = .checksumError
    then [.condition .checksumError] else [], ?_⟩
  rw [Framing.receiveByte_eq_afterReceive]
  refine ⟨h.cfg, h.phase, ?_, h.lastTx, ?_, by simp [h.frames], by simp [h.reports]⟩
  · rw [Framing.receiveAll_append, ← h.rx, ← h.cfg]
    rfl
  · rw [← List.append_assoc, ← h.trace]
    rfl

/-- Bytes that complete no frame are received one after the other. -/
theorem Heard.receiveLoop_silent {s u : State} {before : List Byte} {es : List Event}
    (hmode : s.cfg.mode = .jvs) (h : Heard s before es u) (bytes : List Byte)
    (more : List (Option Byte)) (hsilent : .complete ∉ receiveResults s.cfg bytes u.rx) :
    ∃ u' es', Heard s (before ++ bytes) es' u'
      ∧ receiveLoop (bytes.map some ++ more) u = receiveLoop more u' := by
  induction bytes generalizing before es u with
  | nil => exact ⟨u, es, by rwa [List.append_nil], rfl⟩
  | cons b bytes ih =>
    obtain ⟨hfirst, hrest⟩ := List.ne_and_not_mem_of_not_mem_cons hsilent
    obtain ⟨es₁, h₁⟩ := h.concat b (bytes.map some ++ more)
    have hrx : (receiveByte b (u.withSerial (bytes.map some ++ more))).rx
        = (rxByte s.cfg b u.rx).1 := by
      rw [Invariant.receiveByte_rx, withSerial_cfg, withSerial_rx, h.cfg]
    obtain ⟨u', es', h', hloop⟩ := ih h₁ (hrx ▸ hrest)
    refine ⟨u', es', by rwa [List.append_assoc] at h', ?_⟩
    have hnone : ¬ frameComplete (receiveByte b (u.withSerial (bytes.map some ++ more))) := by
      rw [frameComplete_receiveByte, decide_eq_true_iff, withSerial_cfg, withSerial_rx, h.cfg]
      exact hfirst.symm
    rw [List.map_cons, List.cons_append, receiveLoop_cons _ _ (h.cfg ▸ hmode), if_neg hnone, hloop]

/-- Bytes that complete a frame are received up to its last, and the frame is dispatched with the
results after it still presented. -/
theorem Heard.receiveLoop_frame {s u : State} {before : List Byte} {es : List Event}
    (hmode : s.cfg.mode = .jvs) (h : Heard s before es u) (bytes : List Byte)
    (more : List (Option Byte)) (hframe : .complete ∈ receiveResults s.cfg bytes u.rx) :
    ∃ u' es' read unread, Heard s (before ++ read) es' u' ∧ bytes = read ++ unread
      ∧ u'.ports.serial = unread.map some ++ more
      ∧ receiveLoop (bytes.map some ++ more) u = exec .jvsDispatch u' := by
  induction bytes generalizing before es u with
  | nil => cases hframe
  | cons b bytes ih =>
    obtain ⟨es₁, h₁⟩ := h.concat b (bytes.map some ++ more)
    have hcomplete := frameComplete_receiveByte b (u.withSerial (bytes.map some ++ more))
    rw [withSerial_cfg, withSerial_rx, h.cfg] at hcomplete
    rw [List.map_cons, List.cons_append, receiveLoop_cons _ _ (h.cfg ▸ hmode)]
    by_cases hfirst : (rxByte s.cfg b u.rx).2 = .complete
    · refine ⟨_, es₁, [b], bytes, h₁, rfl, by rw [receiveByte_ports]; rfl, ?_⟩
      rw [if_pos (hcomplete.trans (decide_eq_true hfirst))]
    · have hrx : (receiveByte b (u.withSerial (bytes.map some ++ more))).rx
          = (rxByte s.cfg b u.rx).1 := by
        rw [Invariant.receiveByte_rx, withSerial_cfg, withSerial_rx, h.cfg]
      have hrest := (List.mem_cons.mp hframe).resolve_left fun e => hfirst e.symm
      obtain ⟨u', es', read, unread, h', rfl, hserial, hloop⟩ := ih h₁ (hrx ▸ hrest)
      refine ⟨u', es', b :: read, unread, by rwa [List.append_assoc] at h', rfl, hserial, ?_⟩
      rw [hcomplete, decide_eq_false hfirst]
      exact hloop

/-! ## What a dispatch leaves at the ports -/

/-- Nothing was taken from the line and no report offered between `s` and `t`. -/
structure OffersNothing (s t : State) : Prop where
  ports : t.ports = s.ports
  reports : ∃ es, t.trace = s.trace ++ es ∧ reportsOffered es = []

theorem OffersNothing.of_trace {s t : State} (es : List Event) (hports : t.ports = s.ports)
    (htrace : t.trace = s.trace ++ es) (hes : reportsOffered es = []) : OffersNothing s t :=
  ⟨hports, es, htrace, hes⟩

theorem OffersNothing.refl (s : State) : OffersNothing s s :=
  .of_trace [] rfl (List.append_nil _).symm rfl

theorem OffersNothing.trans {s t u : State} (h : OffersNothing s t) (k : OffersNothing t u) :
    OffersNothing s u := by
  obtain ⟨hports, es, htrace, hes⟩ := h
  obtain ⟨kports, fs, ktrace, hfs⟩ := k
  exact .of_trace (es ++ fs) (kports.trans hports) (by rw [ktrace, htrace, List.append_assoc])
    (by simp [hes, hfs])

theorem endDispatch_offersNothing (s : State) : OffersNothing s (endDispatch s) :=
  .of_trace _ rfl rfl rfl

theorem startDispatch_offersNothing (s : State) : OffersNothing s (startDispatch s) := by
  rcases startDispatch_cases s with ⟨_, e⟩ | ⟨_, e⟩ <;> rw [e] <;>
    exact .of_trace [] rfl (List.append_nil _).symm rfl

theorem command_offersNothing {cmd : Command} {s t : State} (h : CommandOutcome cmd s t) :
    OffersNothing s t := by
  cases h with
  | answered body _ _ => exact .of_trace [] rfl (List.append_nil _).symm rfl
  | unsupported op _ => rw [raiseUnsupported_eq]; exact .of_trace _ rfl rfl rfl
  | resent _ =>
    rw [resend_eq]
    refine .of_trace _ rfl rfl ?_
    split <;> rfl

theorem walkFrame_offersNothing {n : Nat} {s t : State} (h : walkFrame n s = .next t) :
    OffersNothing s t := by
  induction n generalizing s with
  | zero =>
    rw [walkFrame_zero] at h
    obtain rfl := Host.Outcome.next.inj h
    split
    · exact endDispatch_offersNothing s
    · exact .refl s
  | succ n ih =>
    by_cases hphase : s.phase = .walk
    · by_cases hptr : s.cmdPtr < s.rx.count
      · rw [walkFrame_command hphase hptr] at h
        obtain ⟨u, hcmd, hrest⟩ := andThen_eq_next h
        exact (command_offersNothing (execCommand_outcome hcmd)).trans (ih hrest)
      · rw [walkFrame_end hphase (Nat.le_of_not_lt hptr)] at h
        exact Host.Outcome.next.inj h ▸ endDispatch_offersNothing s
    · rw [walkFrame_done hphase] at h
      exact Host.Outcome.next.inj h ▸ .refl s

theorem exec_jvsDispatch_offersNothing {s t : State} (h : exec .jvsDispatch s = .next t) :
    OffersNothing s t := by
  rw [Commands.exec_jvsDispatch (execJvsDispatch_mode h)] at h
  exact (startDispatch_offersNothing s).trans (walkFrame_offersNothing h)

/-- A dispatch ends the iteration with at most one frame, the line and the transport left alone. -/
theorem dispatch_ends {s : State} (hwf : s.cfg.wf = true) (hmode : s.cfg.mode = .jvs)
    (hlast : s.lastTx.valid = true → 1 ≤ s.lastTx.bytes.length ∧ s.lastTx.bytes.length ≤ 252) :
    ∃ t es, exec .jvsDispatch s = .next t ∧ t.trace = s.trace ++ es ∧ t.phase = .boundary
      ∧ t.ports = s.ports ∧ (framesSent es).length ≤ 1 ∧ reportsOffered es = [] := by
  obtain ⟨t, es, hexec, htrace, hphase, hframes, _⟩ :=
    Commands.dispatchAnswersOnce s _ hwf hmode hlast Iff.rfl
  obtain ⟨hports, es', htrace', hreports⟩ := exec_jvsDispatch_offersNothing hexec
  obtain rfl : es = es' := List.append_cancel_left (htrace.symm.trans htrace')
  refine ⟨t, es, hexec, htrace, hphase, hports, ?_, hreports⟩
  rcases hframes with e | ⟨_, e, _⟩ <;> rw [e]
  · exact Nat.zero_le 1
  · exact le_rfl

/-! ## How a poll in `Jvs` mode goes on -/

/-- A `POLL` from `s` answers `t` with `es` recorded: at most one frame, no report. -/
structure PollAnswers (now : Nat) (s t : State) (es : List Event) : Prop where
  exec : exec (.poll now) s = .next t
  trace : t.trace = s.trace ++ es
  frames : (framesSent es).length ≤ 1
  reports : reportsOffered es = []

theorem PollAnswers.unique {now : Nat} {s t t' : State} {es es' : List Event}
    (h : PollAnswers now s t es) (h' : PollAnswers now s t' es') : t' = t ∧ es' = es := by
  obtain rfl : t' = t := Host.Outcome.next.inj (h'.exec.symm.trans h.exec)
  exact ⟨rfl, List.append_cancel_left (h'.trace.symm.trans h.trace)⟩

section Poll

variable {s : State} {bytes : List Byte} {more later : List (Option Byte)}

/-- The bytes presented complete a frame (46_pipeline.md R263). -/
theorem poll_of_frame (now : Nat) (hinv : s.Inv) (hmode : s.cfg.mode = .jvs)
    (hserial : s.ports.serial = bytes.map some ++ more)
    (hframe : .complete ∈ receiveResults s.cfg bytes s.rx) :
    ∃ t es read unread, PollAnswers now s t es ∧ t.phase = .boundary ∧ bytes = read ++ unread
      ∧ t.ports.serial = unread.map some ++ more := by
  have hstart := heard_pollStart now s
  obtain ⟨u, es, read, unread, hu, hbytes, hunread, hloop⟩ :=
    hstart.receiveLoop_frame hmode bytes more (hstart.rx ▸ hframe)
  obtain ⟨hwf, _, _, _, _, ⟨_, hlast, _⟩, _⟩ := hinv
  obtain ⟨_, _, _, _, hmax, _⟩ := wf_fixed hwf
  obtain ⟨t, fs, hexec, htrace, hphase, hports, hframes, hreports⟩ := dispatch_ends
    (hu.cfg ▸ hwf) (hu.cfg ▸ hmode) (by rw [hu.lastTx, ← hmax]; exact hlast)
  refine ⟨t, es ++ fs, read, unread, ⟨?_, ?_, ?_, ?_⟩, hphase, hbytes, by rw [hports, hunread]⟩
  · rw [exec_poll_jvs now hmode, hserial, hloop, hexec]
  · rw [htrace, hu.trace, List.append_assoc]
  · simpa [hu.frames] using hframes
  · simp [hu.reports, hreports]

/-- They complete none, and no time-out follows (70_reset_and_hazards.md R329; log 9). -/
theorem poll_of_silence (now : Nat) (hmode : s.cfg.mode = .jvs)
    (hserial : s.ports.serial = bytes.map some)
    (hsilent : .complete ∉ receiveResults s.cfg bytes s.rx) :
    ∃ t es, PollAnswers now s t es ∧ t.phase = .receive ∧ t.ports.serial = []
      ∧ t.rx = receiveAll s.cfg bytes s.rx ∧ framesSent es = [] := by
  have hstart := heard_pollStart now s
  obtain ⟨u, es, hu, hloop⟩ :=
    hstart.receiveLoop_silent hmode bytes [] (hstart.rx ▸ hsilent)
  refine ⟨u.withSerial [], es, ⟨?_, hu.trace, by simp [hu.frames], hu.reports⟩, hu.phase, rfl,
    hu.rx, hu.frames⟩
  rw [exec_poll_jvs now hmode, hserial, ← List.append_nil (bytes.map some), hloop]
  rfl

/-- They complete none, and the read after them times out (46_pipeline.md R263). -/
theorem poll_of_timeout (now : Nat) (hmode : s.cfg.mode = .jvs)
    (hserial : s.ports.serial = bytes.map some ++ none :: later)
    (hsilent : .complete ∉ receiveResults s.cfg bytes s.rx) :
    ∃ t es, PollAnswers now s t es ∧ t.phase = .boundary ∧ t.ports.serial = later
      ∧ t.rx = receiveAll s.cfg bytes s.rx ∧ framesSent es = [] := by
  have hstart := heard_pollStart now s
  obtain ⟨u, es, hu, hloop⟩ :=
    hstart.receiveLoop_silent hmode bytes (none :: later) (hstart.rx ▸ hsilent)
  refine ⟨endIteration (u.withSerial later), es,
    ⟨?_, hu.trace, by simp [hu.frames], hu.reports⟩, rfl, rfl, hu.rx, hu.frames⟩
  rw [exec_poll_jvs now hmode, hserial, hloop]
  rfl

end Poll

/-- What the line presents is bytes up to its end or the first time-out. -/
theorem exists_leading_bytes (l : List (Option Byte)) :
    ∃ bytes : List Byte, l = bytes.map some ∨ ∃ later, l = bytes.map some ++ none :: later := by
  induction l with
  | nil => exact ⟨[], .inl rfl⟩
  | cons r l ih =>
    cases r with
    | none => exact ⟨[], .inr ⟨l, rfl⟩⟩
    | some b =>
      obtain ⟨bytes, rfl | ⟨later, rfl⟩⟩ := ih
      · exact ⟨b :: bytes, .inl rfl⟩
      · exact ⟨b :: bytes, .inr ⟨later, rfl⟩⟩

/-- By the bytes before the end or the first time-out: they complete a frame, or are used up. -/
theorem poll_answers {s : State} (now : Nat) (hinv : s.Inv) (hmode : s.cfg.mode = .jvs) :
    ∃ t es used, PollAnswers now s t es ∧ s.ports.serial = used ++ t.ports.serial
      ∧ (t.phase = .boundary
        ∨ (t.phase = .receive ∧ t.ports.serial = [] ∧ none ∉ used ∧ framesSent es = []))
      ∧ (none ∈ s.ports.serial → t.phase = .boundary) := by
  obtain ⟨bytes, hline⟩ := exists_leading_bytes s.ports.serial
  by_cases hframe : .complete ∈ receiveResults s.cfg bytes s.rx
  · obtain ⟨more, hserial⟩ : ∃ more, s.ports.serial = bytes.map some ++ more := by
      rcases hline with e | ⟨later, e⟩
      · exact ⟨[], by rw [e, List.append_nil]⟩
      · exact ⟨_, e⟩
    obtain ⟨t, es, read, unread, hans, hphase, rfl, hunread⟩ :=
      poll_of_frame now hinv hmode hserial hframe
    refine ⟨t, es, read.map some, hans, ?_, .inl hphase, fun _ => hphase⟩
    rw [hserial, hunread, List.map_append, List.append_assoc]
  · rcases hline with hserial | ⟨later, hserial⟩
    · obtain ⟨t, es, hans, hphase, hempty, _, hframes⟩ := poll_of_silence now hmode hserial hframe
      have hnone : none ∉ bytes.map some := by simp
      exact ⟨t, es, bytes.map some, hans, by rw [hserial, hempty, List.append_nil],
        .inr ⟨hphase, hempty, hnone, hframes⟩, fun h => absurd (hserial ▸ h) hnone⟩
    · obtain ⟨t, es, hans, hphase, hlater, _⟩ := poll_of_timeout now hmode hserial hframe
      refine ⟨t, es, bytes.map some ++ [none], hans, ?_, .inl hphase, fun _ => hphase⟩
      rw [hserial, hlater, List.append_assoc, List.singleton_append]

/-- Settles O51: the bytes before the end or the first time-out give the answer, by whether they
complete a frame; for any other cut of the line the three cases give the same answer again. -/
theorem jvsPollEndsOrKeepsReceiving : Obligations.JvsPollEndsOrKeepsReceiving := by
  intro now s hinv hmode
  obtain ⟨t, es, used, hans, hused, hend, htimeout⟩ := poll_answers now hinv hmode
  refine ⟨t, es, used, hans.exec, hans.trace, hused, hend, htimeout, fun bytes more hserial =>
    ⟨fun hframe => ?frame, fun hsilent => ⟨fun hmore => ?silence, fun later hmore => ?timeout⟩⟩,
    hans.frames, hans.reports⟩
  case frame =>
    obtain ⟨t', es', _, unread, hans', hphase, _, hunread⟩ :=
      poll_of_frame now hinv hmode hserial hframe
    obtain ⟨rfl, rfl⟩ := hans.unique hans'
    exact ⟨hphase, unread.map some, hunread⟩
  case silence =>
    rw [hmore, List.append_nil] at hserial
    obtain ⟨t', es', hans', hleft⟩ := poll_of_silence now hmode hserial hsilent
    obtain ⟨rfl, rfl⟩ := hans.unique hans'
    exact hleft
  case timeout =>
    rw [hmore] at hserial
    obtain ⟨t', es', hans', hleft⟩ := poll_of_timeout now hmode hserial hsilent
    obtain ⟨rfl, rfl⟩ := hans.unique hans'
    exact hleft

@[simp] theorem pollStart_ports (now : Nat) (s : State) : (pollStart now s).ports = s.ports := by
  obtain ⟨sw, e⟩ := pollStart_eq now s
  rw [e]

/-- Settles O52: the boundary's step is the start of the poll, and the steps after it are its
receive loop (`reaches_of_receiveLoop`). -/
theorem jvsPollIsItsSteps : Obligations.JvsPollIsItsSteps := by
  intro s i hinv hmode hphase hpending hact
  have ⟨hwf, _⟩ := hinv
  have hstep : step s = .next (pollStart i.now (loadPorts i (takeAct s))) := by
    rw [step_of_boundary hwf hphase, boundaryStep_of_poll hpending hact]
    exact pollTurn_of_jvs (s := loadPorts i (takeAct s)) hmode
  obtain ⟨t, _, _, hpoll, _⟩ :=
    jvsPollEndsOrKeepsReceiving i.now (loadPorts i (takeAct s)) hinv hmode
  have hstart := heard_pollStart i.now (loadPorts i (takeAct s))
  have hloop : receiveLoop _ (pollStart i.now (loadPorts i (takeAct s))) = .next t :=
    (exec_poll_jvs (s := loadPorts i (takeAct s)) i.now hmode).symm.trans hpoll
  rw [← pollStart_ports i.now] at hloop
  obtain ⟨n, hn⟩ := Reaches.step hstep
    (reaches_of_receiveLoop (by rwa [hstart.cfg]) (by rwa [hstart.cfg]) hstart.phase hloop)
  exact ⟨n, t, hpoll, hn⟩

end Sys2Proof.Proofs.Pipeline
end

section
/-! The statements of 60_exceptions.md. -/

namespace Sys2Proof.Proofs.Exceptions

open Sys2Proof Sys2Proof.Machine

/-! ## A checksum failure -/

/-- Settles O36: the byte that passes the first three tests of R191 is the checksum
(`receiveByteTransitions`), and the row of a wrong checksum writes the receive registers, the
returned value and the record. -/
theorem checksumErrorChangesNothingElse : Obligations.ChecksumErrorChangesNothingElse := by
  intro w b s hwf hmode hstate hsync hprefix hb hne
  obtain ⟨t, hexec, _, _, _, harmed, hplain⟩ := Framing.receiveByteTransitions w s hwf hmode
  have hinside : s.rx.state ≠ .waitSync := hstate.trans_ne nofun
  have hreceived : ReceivedAs b s t := by
    cases he : s.rx.escape with
    | true => rw [hb, if_pos he]; exact harmed hsync hinside he
    | false => rw [hb, if_neg (by simp [he])]; exact hplain hsync (hprefix ⟨·, he⟩) hinside he
  obtain ⟨_, _, _, _, _, _, herror⟩ := hreceived
  obtain rfl := herror hstate hne
  exact ⟨_, hexec, rfl, by simp [conditionsRaised], by simp [framesSent], rfl, rfl⟩

/-! ## The operations that cannot fail -/

theorem execJvsTxFrame_of_fits {dest : Byte} {data : List Byte} {s : State}
    (hmode : s.cfg.mode = .jvs) (hlen : data.length ≤ s.cfg.jvsMaxPayload) :
    execJvsTxFrame dest data s
      = .next ((s.emit [.serialSend (wireFrame s.cfg dest data)]).withRet
          (.wire (wireFrame s.cfg dest data))) :=
  (if_pos hlen).trans (onlyIn_of_mode hmode)

/-- Settles O32: each of the eight operations tests at most its operands and the mode of the build,
which the premises give. -/
theorem operationsThatCannotFail : Obligations.OperationsThatCannotFail := by
  intro i s hwf hbuild
  cases i with
  | scan now => exact ⟨_, execScan_eq now s⟩
  | map v => exact ⟨_, Map.execMap_of_length (beq_iff_eq.mp hwf)⟩
  | encJoy act p =>
    obtain ⟨hplayers, hpos, hle⟩ :
        act.players.length = s.cfg.nPlayers ∧ 1 ≤ p ∧ p ≤ s.cfg.nPlayers := by
      simpa [Instr.wf] using hwf
    have hplayer : p - 1 < act.players.length := by omega
    exact ⟨_, Joystick.execEncJoy_of_player hbuild hpos hle (List.getElem?_eq_getElem hplayer)⟩
  | encKbd act => exact ⟨_, Keyboard.execEncKbd_of_mode hbuild⟩
  | jvsTxFrame dest data => exact ⟨_, execJvsTxFrame_of_fits hbuild (of_decide_eq_true hwf)⟩
  | setSwitch player button pressed => exact ⟨_, onlyIn_of_mode hbuild⟩
  | incCoin slot => exact ⟨_, onlyIn_of_mode hbuild⟩
  | reconfig table => exact ⟨_, Pipeline.exec_reconfig_of_complete hwf⟩
  | _ => exact hbuild.elim

/-! ## The step goes on -/

/-- What the outside may ask for next: the spec gives it no way to do anything else (10_state.md R40,
46_pipeline.md R270, 70_reset_and_hazards.md R326; log 11, log 12, log 28). -/
def Allowed (s : State) : Prop :=
  match nextAct s with
  | .poll _ => True
  | .setSwitch _ _ _ => s.cfg.mode = .jvs
  | .incCoin _ => s.cfg.mode = .jvs
  | .request table => tableOk s.cfg table = true
      ∧ (s.reconfigPending = true → table = s.reconfigTable)
  | .serial _ => True
  | .powerOn => True

theorem pollTurn_goes_on (now : Nat) (s : State) : ∃ t, pollTurn now s = .next t := by
  cases hmode : s.cfg.mode with
  | joystick => exact ⟨pollJoystick now s, by simp [pollTurn, exec, execPoll, hmode]⟩
  | keyboard => exact ⟨pollKeyboard now s, by simp [pollTurn, exec, execPoll, hmode]⟩
  | jvs => exact ⟨_, Pipeline.pollTurn_of_jvs hmode⟩

theorem boundaryStep_of_powerOn {s : State} (hpending : s.reconfigPending = false)
    (h : nextAct s = .powerOn) : boundaryStep s = .next (powerOn (takeAct s)) := by
  simp [boundaryStep, hpending, h]

theorem boundaryStep_goes_on {s : State} (htable : tableOk s.cfg s.reconfigTable = true)
    (hallowed : s.reconfigPending = false → Allowed s) : ∃ t, boundaryStep s = .next t := by
  cases hpending : s.reconfigPending with
  | true =>
    rw [Pipeline.boundaryStep_of_pending hpending]
    exact ⟨_, Pipeline.exec_reconfig_of_complete htable⟩
  | false =>
    have hact := hallowed hpending
    unfold Allowed at hact
    cases h : nextAct s with
    | poll i =>
      rw [Pipeline.boundaryStep_of_poll hpending h]
      exact pollTurn_goes_on i.now _
    | setSwitch player button pressed =>
      rw [h] at hact
      rw [Pipeline.boundaryStep_of_setSwitch hpending h]
      exact ⟨_, onlyIn_of_mode (s := takeAct s) hact⟩
    | incCoin slot =>
      rw [h] at hact
      rw [Pipeline.boundaryStep_of_incCoin hpending h]
      exact ⟨_, onlyIn_of_mode (s := takeAct s) hact⟩
    | request table =>
      rw [h] at hact
      obtain ⟨hcomplete, hsame⟩ := hact
      rw [Pipeline.boundaryStep_of_request hpending h]
      exact ⟨_, Memory.requestReconfig_of_accepted (s := takeAct s) hcomplete hsame⟩
    | serial r => exact ⟨_, Pipeline.boundaryStep_of_serial hpending h⟩
    | powerOn => exact ⟨_, boundaryStep_of_powerOn hpending h⟩

/-- A listening block refuses a request only; an act that needs the boundary ends the iteration. -/
theorem listenStep_goes_on {s : State} (hallowed : Allowed s) : ∃ t, listenStep s = .next t := by
  unfold Allowed at hallowed
  cases h : nextAct s with
  | poll i => exact ⟨_, Memory.listenStep_of_needsBoundary (.inl ⟨i, h⟩)⟩
  | setSwitch player button pressed =>
    exact ⟨_, Memory.listenStep_of_needsBoundary (.inr (.inl ⟨player, button, pressed, h⟩))⟩
  | incCoin slot => exact ⟨_, Memory.listenStep_of_needsBoundary (.inr (.inr ⟨slot, h⟩))⟩
  | request table =>
    rw [h] at hallowed
    obtain ⟨htable, hsame⟩ := hallowed
    rw [Memory.listenStep_of_request h]
    exact ⟨_, Memory.requestReconfig_of_accepted (s := takeAct s) htable hsame⟩
  | serial r => exact ⟨_, Memory.listenStep_of_serial h⟩
  | powerOn => exact ⟨_, Memory.listenStep_of_powerOn h⟩

theorem step_goes_on_of_receive {s : State} (hwf : s.cfg.wf = true) (hmode : s.cfg.mode = .jvs)
    (hphase : s.phase = .receive) (hallowed : s.ports.serial = [] → Allowed s) :
    ∃ t, step s = .next t := by
  match hserial : s.ports.serial with
  | [] =>
    rw [Memory.step_of_listening hwf hphase hserial]
    exact listenStep_goes_on (hallowed hserial)
  | none :: rest => exact ⟨_, Framing.timeoutEndsTheIterationOnly s rest hwf hphase hserial⟩
  | some b :: rest =>
    rcases Pipeline.step_symbol_cases hwf hmode hphase hserial with hstep | ⟨_, _, _, _, _, hstep⟩
    · exact ⟨_, hstep⟩
    · exact ⟨_, hstep⟩

theorem step_goes_on_of_walk {s : State} (hwf : s.cfg.wf = true) (hmode : s.cfg.mode = .jvs)
    (hphase : s.phase = .walk) : ∃ t, step s = .next t := by
  by_cases hptr : s.cmdPtr < s.rx.count
  · rw [Commands.step_of_command hwf hphase hptr, exec_toInstr]
    exact execCommand_next _ hmode
  · exact ⟨_, Commands.stepEndsTheWalk s hwf hphase (Nat.le_of_not_lt hptr)⟩

/-- Settles O8: by the phase. At the boundary and while listening the next act decides; a wire symbol,
a time-out and a command always go on, in the `Jvs` build that the invariant gives them. -/
theorem stepGoesOnFromInvariant : Obligations.StepGoesOnFromInvariant := by
  intro s hinv hallowed
  obtain ⟨hwf, _, ⟨_, htable⟩, _, _, _, _, _, hmode⟩ := hinv
  cases hphase : s.phase with
  | boundary =>
    rw [Pipeline.step_of_boundary hwf hphase]
    exact boundaryStep_goes_on htable fun hpending => hallowed (.inl ⟨hphase, hpending⟩)
  | receive =>
    exact step_goes_on_of_receive hwf (hmode (by simp [hphase])) hphase
      fun hserial => hallowed (.inr ⟨hphase, hserial⟩)
  | walk => exact step_goes_on_of_walk hwf (hmode (by simp [hphase])) hphase

end Sys2Proof.Proofs.Exceptions
end

section
/-! The statements of 70_reset_and_hazards.md. -/

namespace Sys2Proof.Proofs.Hazards

open Sys2Proof Sys2Proof.Machine Sys2Proof.Proofs.Registers

/-! ## Power-on reset -/

/-- Settles O20: with no table pending the boundary's step takes the act, and `powerOn` is the reset
state of the record with the outside's side kept. -/
theorem powerOnResetsEveryRegister : Obligations.PowerOnResetsEveryRegister := by
  intro s hwf hphase hpending hact
  rw [Pipeline.step_of_boundary hwf hphase, Exceptions.boundaryStep_of_powerOn hpending hact]
  rfl

/-! ## Starvation of the scanner -/

/-- The block after a byte that completes no frame was presented and received, `rest` being the acts
after it. -/
def afterSilentByte (b : Byte) (rest : List Act) (s : State) : State :=
  { s with
    rx := (rxByte s.cfg b s.rx).1
    script := rest
    tick := s.tick + 1
    ret := .rx false
    trace := s.trace ++
      if (rxByte s.cfg b s.rx).2 = .checksumError then [.condition .checksumError] else [] }

/-- With nothing presented before it the byte is received on its own: no pair can be read. -/
theorem step_of_presentedByte {s : State} {b : Byte} {rest : List Act} (hwf : s.cfg.wf = true)
    (hmode : s.cfg.mode = .jvs) (hphase : s.phase = .receive) (hserial : s.ports.serial = [])
    (hscript : s.script = .serial (some b) :: rest)
    (hsilent : (rxByte s.cfg b s.rx).2 ≠ .complete) :
    step (hear (some b) (takeAct s)) = .next (afterSilentByte b rest s) := by
  have hline : (hear (some b) (takeAct s)).ports.serial = [some b] := by
    simp [hear, hserial, State.withSerial]
  have hused : (hear (some b) (takeAct s)).withSerial []
      = { s with script := rest, tick := s.tick + 1 } := by
    simp [hear, takeAct, State.withSerial, hscript, ← hserial]
  rcases Pipeline.step_symbol_cases (s := hear (some b) (takeAct s)) hwf hmode hphase hline with
    hstep | ⟨_, _, hpair, _⟩
  · rw [hstep, hused, Framing.receiveByte_eq_afterReceive, Pipeline.afterSymbol_of_incomplete]
    · simp [Framing.afterReceive, afterSilentByte, hsilent]
    · simp [Framing.afterReceive, hsilent]
  · cases hpair

/-- Two steps for a byte that completes no frame: it is presented, it is received. -/
theorem runsTo_of_silentByte {n : Nat} {s t : State} {b : Byte} {rest : List Act}
    (hwf : s.cfg.wf = true) (hmode : s.cfg.mode = .jvs) (hphase : s.phase = .receive)
    (hserial : s.ports.serial = []) (hscript : s.script = .serial (some b) :: rest)
    (hsilent : (rxByte s.cfg b s.rx).2 ≠ .complete) (hrun : runsTo n (afterSilentByte b rest s) t) :
    runsTo (n + 2) s t := by
  have hact : nextAct s = .serial (some b) := by simp [nextAct, hscript]
  have hpresented : step s = .next (hear (some b) (takeAct s)) := by
    rw [Memory.step_of_listening hwf hphase hserial, Memory.listenStep_of_serial hact]
  have hreceived := step_of_presentedByte hwf hmode hphase hserial hscript hsilent
  calc Sys2Proof.core.run (n + 2) s
      = Sys2Proof.core.run (n + 1) (hear (some b) (takeAct s)) :=
        Pipeline.run_succ_of_step (M := Sys2Proof.core) (n + 1) hpresented
    _ = Sys2Proof.core.run n (afterSilentByte b rest s) :=
        Pipeline.run_succ_of_step (M := Sys2Proof.core) n hreceived
    _ = .next t := hrun

/-- Settles O15: by induction on the bytes, two steps for each (`runsTo_of_silentByte`). -/
theorem starvedIterationGoesOn : Obligations.StarvedIterationGoesOn := by
  intro s bytes rest hwf hmode hphase hserial hscript hsilent
  induction bytes generalizing s with
  | nil =>
    refine ⟨s, [], rfl, ?_, rfl, rfl⟩
    simp [receiveAll, ← show s.script = rest from hscript]
  | cons b bytes ih =>
    obtain ⟨hfirst, hrest⟩ := List.ne_and_not_mem_of_not_mem_cons hsilent
    obtain ⟨t, es, hrun, ht, hframes, hreports⟩ :=
      ih (afterSilentByte b (bytes.map (fun b => Act.serial (some b)) ++ rest) s)
        hwf hmode hphase hserial rfl hrest
    refine ⟨t, (if (rxByte s.cfg b s.rx).2 = .checksumError
        then [.condition .checksumError] else []) ++ es,
      runsTo_of_silentByte hwf hmode hphase hserial hscript hfirst.symm hrun, ht.trans ?_,
      by simp [hframes], by simp [hreports]⟩
    simp [afterSilentByte, receiveAll, Nat.add_assoc, Nat.add_comm 1]

/-! ## A pending table -/

/-- The flag, the pending table and `MAP` stay (70_reset_and_hazards.md R326). -/
def StaysPending (s t : State) : Prop :=
  t.reconfigPending = true ∧ t.reconfigTable = s.reconfigTable ∧ t.map = s.map

theorem staysPending_of_kept {s t : State} (h : KeptByReception s t)
    (hpending : s.reconfigPending = true) : StaysPending s t :=
  ⟨h.reconfigPending.trans hpending, h.reconfigTable, h.map⟩

theorem afterSymbol_kept (s : State) : KeptByReception s (afterSymbol s) := by
  unfold afterSymbol
  split
  · exact (startDispatch_kept s).toKeptByReception
  · exact (KeptByDispatch.refl s).toKeptByReception

/-- A wire symbol writes what reception and the start of a dispatch write. -/
theorem symbolStep_kept {s t : State} (b : Byte) (h : symbolStep b s = .next t) :
    KeptByReception s t := by
  obtain ⟨u, hexec, hafter⟩ := andThen_eq_next h
  obtain rfl := Host.Outcome.next.inj hafter
  have hi := Invariant.wireSymbol_isReception s.cfg s.rx.escape b s.ports.serial[1]?.join
  obtain ⟨_, r, v, es, rfl⟩ := exec_reception_eq_next hi hexec
  exact KeptByReception.trans (by constructor <;> rfl) (afterSymbol_kept _)

theorem walkStep_kept {s t : State} (h : walkStep s = .next t) : KeptByReception s t := by
  unfold walkStep at h
  split at h
  · rw [exec_toInstr] at h
    exact (execCommand_outcome h).kept.toKeptByReception
  · exact Host.Outcome.next.inj h ▸ (endDispatch_kept s).toKeptByReception

/-- A request that goes on while a table is pending asks for that very table. -/
theorem requestReconfig_staysPending {table : Table} {s t : State}
    (hpending : s.reconfigPending = true) (h : requestReconfig table s = .next t) :
    StaysPending s t := by
  rcases requestReconfig_cases table s with ⟨_, hsame, e⟩ | ⟨_, _, _, e⟩ | ⟨_, e⟩ <;> rw [e] at h
  · exact Host.Outcome.next.inj h ▸ ⟨rfl, hsame hpending, rfl⟩
  · cases h
  · cases h

theorem listenStep_staysPending {s t : State} (hpending : s.reconfigPending = true)
    (hact : nextAct s ≠ .powerOn) (h : listenStep s = .next t) : StaysPending s t := by
  unfold listenStep at h
  split at h
  case h_1 => exact Host.Outcome.next.inj h ▸ ⟨hpending, rfl, rfl⟩
  case h_2 => exact requestReconfig_staysPending (s := takeAct s) hpending h
  case h_3 e => exact absurd e hact
  all_goals exact Host.Outcome.next.inj h ▸ staysPending_of_kept (endIteration_kept s) hpending

/-- In the receive loop the flag stays set, but for a power-on reset of a listening block. -/
theorem receiveStep_staysPending {s t : State} (hpending : s.reconfigPending = true)
    (hact : s.ports.serial = [] → nextAct s ≠ .powerOn) (h : receiveStep s = .next t) :
    StaysPending s t := by
  unfold receiveStep at h
  split at h
  case h_1 hserial => exact listenStep_staysPending hpending (hact hserial) h
  case h_2 rest _ =>
    exact Host.Outcome.next.inj h ▸
      staysPending_of_kept ((withSerial_kept rest s).trans (endIteration_kept _)) hpending
  case h_3 b _ _ => exact staysPending_of_kept (symbolStep_kept b h) hpending

theorem wf_of_step {s t : State} (h : step s = .next t) : s.cfg.wf = true := by
  by_contra hwf
  rw [Scope.step_of_wf_eq_false (Bool.eq_false_of_not_eq_true hwf)] at h
  cases h

/-- Settles O18: by the phase. The boundary takes the table; a walk keeps it (`walkStep_kept`), and so
does the receive loop (`receiveStep_staysPending`) unless a listening block is reset. -/
theorem pendingTableIsStableUntilTheBoundary : Obligations.PendingTableIsStableUntilTheBoundary := by
  intro s t hpending hnext
  have hwf := wf_of_step hnext
  rcases step_of_wf hwf with ⟨hphase, e⟩ | ⟨hphase, e⟩ | ⟨hphase, e⟩
  · rw [e, Pipeline.boundaryStep_of_pending hpending] at hnext
    obtain ⟨_, rfl⟩ := execReconfig_eq_next hnext
    exact .inr (.inl ⟨rfl, hphase, rfl, rfl⟩)
  · by_cases hreset : s.ports.serial = [] ∧ nextAct s = .powerOn
    · obtain ⟨hserial, hact⟩ := hreset
      rw [Memory.step_of_listening hwf hphase hserial, Memory.listenStep_of_powerOn hact] at hnext
      exact .inr (.inr (Host.Outcome.next.inj hnext ▸ ⟨rfl, hphase, hserial, hact, rfl⟩))
    · obtain ⟨hflag, htable, hmap⟩ :=
        receiveStep_staysPending hpending (not_and.mp hreset) (e ▸ hnext)
      exact .inl ⟨hflag, htable, hmap, hphase.trans_ne nofun⟩
  · obtain ⟨hflag, htable, hmap⟩ := staysPending_of_kept (walkStep_kept (e ▸ hnext)) hpending
    exact .inl ⟨hflag, htable, hmap, hphase.trans_ne nofun⟩

end Sys2Proof.Proofs.Hazards
end
